-- ==== Sys2Proof/Word.lean ====
section
/-! DEFINITION. The two bit-vector types of PNGCORE: the 32-bit word of a host-visible register or a TBL entry
(`00_scope.md` R5, `XLEN`) and the byte of SRC, DST and every output stream (R7). All values are unsigned (R6). -/

namespace Sys2Proof

/-- A host-visible register, a command word, a TBL entry: 32 bits (R5, `XLEN = 32`). -/
abbrev Word := BitVec 32

/-- One element of a byte sequence (R7). -/
abbrev Byte := BitVec 8

end Sys2Proof
end

