-- ==== Sys2Proof/Config.lean ====
section
/-! DEFINITION. What the spec leaves to an implementation: the capacities `SRC_CAP` and `DST_CAP` (R5, D11: open
parameters), and the free values, the contents of memory the spec calls unspecified (R28, R30, R31, R34, U10 to
U14). The constants below have no body: no proof can learn a value of one. -/

namespace Sys2Proof

/-- The open parameters of one PNGCORE instance (R5). The range `1 <= cap <= 2^32 - 1` is `Params.wellFormed`. -/
structure Params where
  /-- `SRC_CAP`: the number of bytes the source memory holds. -/
  srcCap : Nat
  /-- `DST_CAP`: the number of bytes the destination memory holds. -/
  dstCap : Nat
  deriving DecidableEq, Repr

/-- One less than the `SRC_CAP` of the instance that `State.reset` describes (R5: any natural from 1 to `2^32 - 1`). -/
opaque Config.srcCapLessOne : Fin 4294967295

/-- One less than the `DST_CAP` of the instance that `State.reset` describes (R5: any natural from 1 to `2^32 - 1`). -/
opaque Config.dstCapLessOne : Fin 4294967295

/-- The capacities of the instance that `State.reset` describes. DESIGN CHOICE (log 1): open constants, so nothing
said of `State.reset` can rest on a capacity; every other state carries its own `params`. -/
def Config.params : Params :=
  { srcCap := Config.srcCapLessOne.val + 1, dstCap := Config.dstCapLessOne.val + 1 }

/-- The byte at an offset of SRC that the host has not written since the reset of the given draw (R30, U11).
Safe: it is any value. -/
opaque Config.freeSrcByte : Nat → Nat → BitVec 8

/-- The byte at an offset of DST that is no output byte, for the command or reset of the given draw (R31, R193,
U12 to U14). Safe: it is any value. -/
opaque Config.freeDstByte : Nat → Nat → BitVec 8

/-- The TBL entry at an index while the table is not built, for the reset of the given draw (R28, U10).
Safe: it is any value. -/
opaque Config.freeTblEntry : Nat → Nat → BitVec 32

end Sys2Proof
end

