-- ==== Sys2Proof/Syntax.lean ====
section
/-! DEFINITION. The commands of PNGCORE: one constructor per row of `spec/opcode_table.json` (`30_encoding.md` R81).
A command word carries no operand field (R80, R82), so no constructor has an argument. -/

namespace Sys2Proof

/-- The eight commands (R81). Every operand comes from a fixed register or memory (R82). -/
inductive Instr where
  /-- `TBLINIT`: build the CRC table (R115). -/
  | tblinit
  /-- `CRC32`: CRC-32 of the source bytes (R117). -/
  | crc32
  /-- `ADLER32`: Adler-32 of the source bytes (R118). -/
  | adler32
  /-- `FILTER`: filtered bitmap of the image in SRC (R131). -/
  | filter
  /-- `STORE`: raw stored-block deflate stream of the source bytes (R145). -/
  | store
  /-- `ZPACK`: zlib stream of the source bytes (R146). -/
  | zpack
  /-- `CHUNK`: one PNG chunk framed around the source bytes (R161). -/
  | chunk
  /-- `ENCODE`: PNG file of the image in SRC (R174). -/
  | encode
  deriving DecidableEq, Repr

end Sys2Proof
end

