-- ==== Sys2Proof/WellFormed.lean ====
section
/-! DEFINITION. The checks a value has to pass to be what the spec talks about: a legal command word (R83) and an
instance's capacities (R5). A command has no operand field, so every `Instr` is well-formed as syntax. -/

namespace Sys2Proof

/-- The bits of a command word that are reserved and must be zero, `v[31:8]` (R80). -/
def rsvdField (v : Word) : BitVec 24 := v.extractLsb' 8 24

/-- The opcode of a command word, `v[7:0]` (R80). -/
def opcodeField (v : Word) : BitVec 8 := v.extractLsb' 0 8

/-- A command word is legal when `v[31:8] = 0` and `1 <= v[7:0] <= 8` (R83). -/
def legalWord (v : Word) : Bool :=
  decide (rsvdField v = 0#24) && decide (1 ≤ (opcodeField v).toNat) && decide ((opcodeField v).toNat ≤ 8)

/-- The capacities are in the range R5 gives them: `1 <= cap <= 2^32 - 1`. -/
def Params.wellFormed (p : Params) : Bool :=
  decide (1 ≤ p.srcCap) && decide (p.srcCap ≤ 4294967295) && decide (1 ≤ p.dstCap) && decide (p.dstCap ≤ 4294967295)

end Sys2Proof
end

