-- ==== Sys2Proof/Decode.lean ====
section
/-! DEFINITION. Decoding a command word (`30_encoding.md` R80 to R85), total on every 32-bit value and rejecting by
name, and after it the encoder. The decode looks at nothing but the word (R84). -/

namespace Sys2Proof

/-- Why a word names no command (R83). Each makes the write of `CMD` end with IllegalCommand (safe: the spec says so). -/
inductive DecodeError where
  /-- A bit of `v[31:8]` is not zero, whatever the opcode. -/
  | reservedBitsSet
  /-- Opcode `0x00`. -/
  | opcodeZero
  /-- Opcodes `0x09` to `0xFF`. -/
  | opcodeUnassigned
  deriving DecidableEq, Repr

/-- The opcode map of R81, read from the opcode to the command. -/
def decodeOpcode (op : BitVec 8) : Except DecodeError Instr :=
  if op = 0x00#8 then .error .opcodeZero
  else if op = 0x01#8 then .ok .tblinit
  else if op = 0x02#8 then .ok .crc32
  else if op = 0x03#8 then .ok .adler32
  else if op = 0x04#8 then .ok .filter
  else if op = 0x05#8 then .ok .store
  else if op = 0x06#8 then .ok .zpack
  else if op = 0x07#8 then .ok .chunk
  else if op = 0x08#8 then .ok .encode
  else .error .opcodeUnassigned

/-- The command a word written to `CMD` names, or why it names none (R83, R84). -/
def decode (v : Word) : Except DecodeError Instr :=
  if rsvdField v = 0#24 then decodeOpcode (opcodeField v) else .error .reservedBitsSet

/-- The opcode map of R81, read from the command to the opcode. -/
def opcode : Instr → BitVec 8
  | .tblinit => 0x01#8
  | .crc32 => 0x02#8
  | .adler32 => 0x03#8
  | .filter => 0x04#8
  | .store => 0x05#8
  | .zpack => 0x06#8
  | .chunk => 0x07#8
  | .encode => 0x08#8

/-- The command word of a command: format `C`, the reserved bits zero and the opcode in bits 7:0 (R80, R85). -/
def encode (i : Instr) : Word := 0#24 ++ opcode i

/-- The command the decoder reads from an opcode-table row's bits: a command is one 32-bit word (R85), whose bits the
table numbers as R80 does, so the word itself is given to the decoder, the bits above `nbits` zero. -/
def decodeTableWord (nbits w : Nat) : Option Instr :=
  (decode (BitVec.ofNat 32 (w % 2 ^ nbits))).toOption

end Sys2Proof
end

