-- ==== Sys2Proof/Machine/State.lean ====
section
/-! DEFINITION. The state of one PNGCORE instance (`10_state.md` R20: "the complete architectural state"), the host
transactions it answers (`20_memory.md` R64), the errors a command can end with (R190), and the state after reset
(R34). Plain data. -/

namespace Sys2Proof.Machine

/-- The nine registers of the REG space (R51). -/
inductive Reg where
  | cmd | status | width | height | channels | srcLen | ctype | result | dstLen
  deriving DecidableEq, Repr

/-- The errors a command word can end with (R190); code 0, no error, is no constructor. -/
inductive ErrorKind where
  /-- `WIDTH = 0` or `HEIGHT = 0`; code 1; FILTER, ENCODE. -/
  | invalidDimensions
  /-- `SRC_LEN` is not `WIDTH * HEIGHT * CHANNELS`; code 2; FILTER, ENCODE. -/
  | bufferLengthMismatch
  /-- `CHANNELS` is neither 3 nor 4; code 3; FILTER, ENCODE. -/
  | invalidChannelCount
  /-- `SRC_LEN > SRC_CAP`, or the output does not fit DST; code 4; every command but TBLINIT. -/
  | allocationFailure
  /-- The command word is not legal; code 5. -/
  | illegalCommand
  /-- `SRC_LEN = 0`; code 6; STORE, ZPACK. -/
  | emptyInput
  deriving DecidableEq, Repr

/-- One host transaction (R64), with the ignored writes of R52 and R54. A REG offset is a multiple of 4 and no other
offset can be expressed (R57), so a REG access names a word index: byte offset `4 * index`. -/
inductive Transaction where
  /-- `RegWrite(4 * index, v)`; index 0 issues the command word `v`. -/
  | regWrite (index : BitVec 30) (v : Word)
  /-- `RegRead(4 * index)`. -/
  | regRead (index : BitVec 30)
  /-- `SrcWrite(a, b)`. -/
  | srcWrite (a : Word) (b : Byte)
  /-- `SrcRead(a)`. -/
  | srcRead (a : Word)
  /-- A host write to DST: ignored (R54). -/
  | dstWrite (a : Word) (b : Byte)
  /-- `DstRead(a)`. -/
  | dstRead (a : Word)
  /-- A host write to TBL: ignored (R52). -/
  | tblWrite (i : Word) (v : Word)
  /-- `TblRead(i)`. -/
  | tblRead (i : Word)
  /-- `Reset`. -/
  | reset
  deriving DecidableEq, Repr

/-- Reasons the machine could stop with a fault: there is none. "Every command completes" and the block "cannot
hang" (R229), every error leaves it ready (R195), and every transaction is always permitted (R197). No instruction
raises a fault; having none is neither safe nor unsafe, it is what the spec says. -/
inductive Fault where
  deriving DecidableEq, Repr

/-- Reasons a step has no meaning. -/
inductive Refusal where
  /-- An arm of `exec` whose instruction has no meaning yet (safe). No arm answers it in this model. -/
  | notModelled (mnemonic : String)
  deriving DecidableEq, Repr

/-- A byte memory (SRC or DST). `cells` lists the bytes whose value is known, offsets strictly rising; an offset that
is not listed has no known value, and is read as a free value that depends on the offset and on `draw`, the model's
own index of the reset or command that last left the memory's other bytes unspecified. -/
structure Memory where
  cells : List Host.Cell
  draw : Nat
  deriving DecidableEq, Repr

/-- The CRC table memory (R28), in the same form: the entries whose value is known, and the draw of the others. -/
structure TableMemory where
  cells : List (Nat × Word)
  draw : Nat
  deriving DecidableEq, Repr

/-- One PNGCORE instance and its host interface. -/
structure State where
  /-- The open parameters of the instance (R5); no step changes them. -/
  params : Params
  /-- `WIDTH` (R21). -/
  width : Word
  /-- `HEIGHT` (R21). -/
  height : Word
  /-- `CHANNELS` (R21). -/
  channels : Word
  /-- `SRC_LEN` (R22). -/
  srcLen : Word
  /-- `CTYPE` (R23). -/
  ctype : Word
  /-- `RESULT` (R24). -/
  result : Word
  /-- `DST_LEN` (R25). -/
  dstLen : Word
  /-- `STATUS.ERRCODE` (R27). -/
  errcode : BitVec 4
  /-- `STATUS.TBL_VALID` (R27, R28). -/
  tblValid : Bool
  /-- `TBL`: 256 entries of 32 bits (R28). -/
  tbl : TableMemory
  /-- `SRC`: `SRC_CAP` bytes (R30). -/
  src : Memory
  /-- `DST`: `DST_CAP` bytes (R31). -/
  dst : Memory
  /-- The model's own: how many times memory contents were left unspecified so far; the next free-value draw. -/
  draws : Nat
  /-- The model's own: the transactions the host issues next, in order (R60: one at a time, in the host's order). -/
  pending : List Transaction
  /-- The model's own: the value the most recent transaction returned, a byte zero-extended (R64, R65); none if it
  returned none. -/
  response : Option Word
  deriving DecidableEq, Repr

/-- The machine right after reset (R34): every register zero, `TBL_VALID = 0`, no byte of a memory known, and no
transaction issued yet. The capacities are open constants; the model's own fields are log 2 and log 3. -/
def State.reset : State where
  params := Config.params
  width := 0#32
  height := 0#32
  channels := 0#32
  srcLen := 0#32
  ctype := 0#32
  result := 0#32
  dstLen := 0#32
  errcode := 0#4
  tblValid := false
  tbl := { cells := [], draw := 0 }
  src := { cells := [], draw := 0 }
  dst := { cells := [], draw := 0 }
  draws := 1
  pending := []
  response := none

end Sys2Proof.Machine
end

