-- ==== Sys2Proof/Machine/Flags.lean ====
section
/-! DEFINITION. STATUS (`10_state.md` R27) and the codes of `STATUS.ERRCODE` (`60_exceptions.md` R190). -/

namespace Sys2Proof.Machine

/-- The code an error records in `STATUS.ERRCODE` (R190). -/
def ErrorKind.code : ErrorKind → BitVec 4
  | .invalidDimensions => 1#4
  | .bufferLengthMismatch => 2#4
  | .invalidChannelCount => 3#4
  | .allocationFailure => 4#4
  | .illegalCommand => 5#4
  | .emptyInput => 6#4

/-- The value a read of STATUS returns (R27): bit 0 `TBL_VALID`, bits 11:8 `ERRCODE`, every other bit 0. -/
def State.status (s : State) : Word := 0#20 ++ s.errcode ++ 0#7 ++ BitVec.ofBool s.tblValid

/-- `x[STATUS.ERRCODE] <- c` (R27: not sticky, every command word writes it). -/
def setErrcode (c : BitVec 4) (s : State) : State := { s with errcode := c }

/-- The last line of every command rule, `x[STATUS.ERRCODE] <- 0` (R190, code 0: the command completed). -/
def complete (s : State) : State := setErrcode 0#4 s

end Sys2Proof.Machine
end

