-- ==== Sys2Proof/Machine/Bytes.lean ====
section
/-! DEFINITION. Byte sequences and integer-to-bytes (`00_scope.md` R6, R7), over lists: the first element is byte 0. -/

namespace Sys2Proof

/-- `ceil(x / y)`, the least integer not below the quotient (R6). -/
def ceilDiv (x y : Nat) : Nat := (x + y - 1) / y

/-- `s[i:j]`: elements `i` up to but not including `j` (R7). -/
def slice (s : List Byte) (i j : Nat) : List Byte := (s.drop i).take (j - i)

/-- The consecutive pieces of a sequence: all but the last of `k` bytes (R140 for `k = 65535`, R113 for `k = 3800`). -/
def pieces (k : Nat) (s : List Byte) : List (List Byte) :=
  (List.range (ceilDiv s.length k)).map fun i => slice s (i * k) (min ((i + 1) * k) s.length)

/-- `be32(v)`: 4 bytes, most significant first (R7). -/
def be32 (v : Word) : List Byte :=
  [v.extractLsb' 24 8, v.extractLsb' 16 8, v.extractLsb' 8 8, v.extractLsb' 0 8]

/-- `le16(v)`: 2 bytes, least significant first (R7). -/
def le16 (v : BitVec 16) : List Byte := [v.extractLsb' 0 8, v.extractLsb' 8 8]

/-- `be32` of a natural below `2^32` (R7). -/
def be32Nat (n : Nat) : List Byte := be32 (BitVec.ofNat 32 n)

end Sys2Proof
end

