-- ==== Sys2Proof/Machine/Functions.lean ====
section
/-! DEFINITION. The function layer of the spec: pure functions on byte sequences under the names of `00_scope.md` R9,
with the constants of R4. They read no state. Where the document passes a function or a table as an argument (the
`table` of `crc32`, the `crcFn` of `build`), a `…With` form takes it, and the engine gives its own. -/

namespace Sys2Proof.Fn

open Sys2Proof.Machine (ErrorKind)

/-- `POLY` (R4). -/
def poly : Word := 0xEDB88320#32

/-- One of the 8 iterations of R110, and `bit_step` of R112. -/
def bitStep (c : Word) : Word := if c.getLsbD 0 then poly ^^^ (c >>> 1) else c >>> 1

/-- `crc_table(n)` (R110): exactly 8 iterations, from `n` zero-extended. -/
def crcTable (n : Byte) : Word := Nat.iterate bitStep 8 (n.setWidth 32)

/-- One step of the CRC loop over a given table: `table[(acc ^ b) & 0xFF] ^ (acc >> 8)` (R111). -/
def crcStepWith (table : Byte → Word) (acc : Word) (b : Byte) : Word :=
  table ((acc ^^^ b.setWidth 32).setWidth 8) ^^^ (acc >>> 8)

/-- The document's `crc32(table, bytes)` (R111): `CRC_INIT`, the bytes first to last, `CRC_XOROUT`. -/
def crc32With (table : Byte → Word) (s : List Byte) : Word :=
  s.foldl (crcStepWith table) 0xFFFFFFFF#32 ^^^ 0xFFFFFFFF#32

/-- `crc_step(acc, b)` (R111). -/
def crcStep (acc : Word) (b : Byte) : Word := crcStepWith crcTable acc b

/-- `crc32(s)` (R111). -/
def crc32 (s : List Byte) : Word := crc32With crcTable s

/-- `ADLER_MOD` (R4). -/
def adlerMod : Nat := 65521

/-- `ADLER_CHUNK` (R5): bytes accumulated between two reductions. -/
def adlerChunkLen : Nat := 3800

/-- One byte of the inner loop of R113: `a <- a + s[j]`, then `b <- b + a` with the updated `a`. -/
def adlerByte (ab : Nat × Nat) (x : Byte) : Nat × Nat := (ab.1 + x.toNat, ab.2 + (ab.1 + x.toNat))

/-- One chunk of R113: every byte of it, then both sums reduced. -/
def adlerChunk (ab : Nat × Nat) (chunk : List Byte) : Nat × Nat :=
  let sums := chunk.foldl adlerByte ab
  (sums.1 % adlerMod, sums.2 % adlerMod)

/-- `adler32(s)` (R113), the sums over naturals. -/
def adler32 (s : List Byte) : Word :=
  let ab := (pieces adlerChunkLen s).foldl adlerChunk (1, 0)
  BitVec.ofNat 32 ((ab.2 <<< 16) ||| ab.1)

/-- `filter(p, W, H, C)` (R130): before every row of `W*C` bytes the filter-type byte `FILTER_NONE`. -/
def filter (p : List Byte) (W H C : Nat) : List Byte :=
  (List.range H).flatMap fun y => 0x00#8 :: slice p (y * (W * C)) ((y + 1) * (W * C))

/-- `BLOCK_MAX` (R4). -/
def blockMax : Nat := 65535

/-- `spans(s)` (R140). The empty sequence, on which the spec leaves it undefined, has no span here, and no command
applies it there (R145, R146; U40). -/
def spans (s : List Byte) : List (List Byte) := pieces blockMax s

/-- `block(final, span)` (R141): header byte, `LEN`, `NLEN`, the span. -/
def block (final : Bool) (span : List Byte) : List Byte :=
  let m := BitVec.ofNat 16 span.length
  [if final then 0x01#8 else 0x00#8] ++ le16 m ++ le16 (0xFFFF#16 ^^^ m) ++ span

/-- `stored_blocks(s)` (R142): every span framed in order, only the last one final. -/
def storedBlocks (s : List Byte) : List Byte :=
  (spans s).zipIdx.flatMap fun p => block (p.2 + 1 == (spans s).length) p.1

/-- `zlib_wrap(s)` (R143) with a given Adler-32: `ZLIB_CMF`, `ZLIB_FLG`, the blocks, the checksum of `s`. -/
def zlibWrapWith (adlerFn : List Byte → Word) (s : List Byte) : List Byte :=
  [0x78#8, 0x01#8] ++ storedBlocks s ++ be32 (adlerFn s)

/-- `zlib_wrap(s)` (R143). -/
def zlibWrap (s : List Byte) : List Byte := zlibWrapWith adler32 s

/-- The document's `build(type, data, crcFn)` (R160): length, type, data, CRC of type and data. -/
def chunkWith (crcFn : List Byte → Word) (t d : List Byte) : List Byte :=
  be32Nat d.length ++ t ++ d ++ be32 (crcFn (t ++ d))

/-- `chunk(t, d)` (R160). -/
def chunk (t d : List Byte) : List Byte := chunkWith crc32 t d

/-- The IHDR colour type (R171): `COLOR_RGBA` for 4 channels, `COLOR_RGB` for 3; no other count reaches it (U42). -/
def colourType (C : Nat) : Byte := if C = 4 then 0x06#8 else 0x02#8

/-- `ihdr_payload(W, H, C)` (R171): 13 bytes. -/
def ihdrPayload (W H C : Nat) : List Byte :=
  be32Nat W ++ be32Nat H ++ [0x08#8, colourType C, 0x00#8, 0x00#8, 0x00#8]

/-- `PNG_SIG` (R4). -/
def pngSig : List Byte := [0x89#8, 0x50#8, 0x4E#8, 0x47#8, 0x0D#8, 0x0A#8, 0x1A#8, 0x0A#8]

/-- `ascii("IHDR")` (R7). -/
def typeIHDR : List Byte := [0x49#8, 0x48#8, 0x44#8, 0x52#8]

/-- `ascii("IDAT")` (R7). -/
def typeIDAT : List Byte := [0x49#8, 0x44#8, 0x41#8, 0x54#8]

/-- `ascii("IEND")` (R7). -/
def typeIEND : List Byte := [0x49#8, 0x45#8, 0x4E#8, 0x44#8]

/-- `encode(W, H, C, p)` (R172) with given checksum functions: the signature and the three chunks, in that order. -/
def encodeWith (crcFn adlerFn : List Byte → Word) (W H C : Nat) (p : List Byte) : List Byte :=
  pngSig ++ chunkWith crcFn typeIHDR (ihdrPayload W H C)
    ++ chunkWith crcFn typeIDAT (zlibWrapWith adlerFn (filter p W H C))
    ++ chunkWith crcFn typeIEND []

/-- `encode(W, H, C, p)` (R172). -/
def encode (W H C : Nat) (p : List Byte) : List Byte := encodeWith crc32 adler32 W H C p

/-- The length of the filtered bitmap, `F = H * (W*C + 1)`, over naturals (R130). -/
def filteredLength (W H C : Nat) : Nat := H * (W * C + 1)

/-- The length of the stored-block stream of `n` bytes, `n + 5*K` (R144). -/
def storedLength (n : Nat) : Nat := n + 5 * ceilDiv n blockMax

/-- The length of the zlib stream of `n` bytes, `6 + n + 5*K` (R144). -/
def zlibLength (n : Nat) : Nat := 6 + storedLength n

/-- The length of the chunk of `n` data bytes, `12 + n` (R160). -/
def chunkLength (n : Nat) : Nat := 12 + n

/-- The length of the PNG file, `63 + F + 5*K` (R173). -/
def encodedLength (W H C : Nat) : Nat := 63 + storedLength (filteredLength W H C)

/-- `validate_image(W, H, C, L)` (R192): the first error that applies, none for `Ok`. The product is over naturals. -/
def validateImage (W H C L : Nat) : Option ErrorKind :=
  if W = 0 ∨ H = 0 then some .invalidDimensions
  else if C ≠ 3 ∧ C ≠ 4 then some .invalidChannelCount
  else if L ≠ W * H * C then some .bufferLengthMismatch
  else none

end Sys2Proof.Fn
end

