-- ==== Sys2Proof/Machine/Ops.lean ====
section
/-! DEFINITION. The named operations over memories and registers (`20_memory.md` R50 to R54, `00_scope.md` R8), the
table initialiser `ensure_table` (R116), the one operation that ends a command in an error (R193), and reset (R220).
There is no return from an error: nothing is saved and nothing is restored (R195). -/

namespace Sys2Proof.Machine

/-! ### Sparse memories: lists of offset and value, offsets strictly rising -/

/-- The known value at an offset; an unlisted offset has none. -/
def readCell {α : Type} (cells : List (Nat × α)) (a : Nat) : Option α :=
  match cells with
  | [] => none
  | (k, v) :: rest => if k = a then some v else readCell rest a

/-- Write the value at one offset, keeping the offsets strictly rising. -/
def writeCell {α : Type} (a : Nat) (v : α) (cells : List (Nat × α)) : List (Nat × α) :=
  match cells with
  | [] => [(a, v)]
  | (k, w) :: rest =>
    if a < k then (a, v) :: (k, w) :: rest
    else if a = k then (a, v) :: rest
    else (k, w) :: writeCell a v rest

/-- The cells of a sequence held at offsets `a`, `a + 1`, …: `s[i]` at offset `a + i` (R8, R56). -/
def cellsFrom {α : Type} (a : Nat) (s : List α) : List (Nat × α) :=
  match s with
  | [] => []
  | v :: rest => (a, v) :: cellsFrom (a + 1) rest

/-- The canonical form: offsets strictly rising. An unlisted offset has no known value, so no entry can equal what an
unlisted offset reads as (log 4). -/
abbrev CellsWf {α : Type} (cells : List (Nat × α)) : Prop := (cells.map Prod.fst).Pairwise (· < ·)

/-- The canonical form of a byte memory. -/
abbrev Memory.wf (m : Memory) : Prop := CellsWf m.cells

/-- The canonical form of the table memory. -/
abbrev TableMemory.wf (m : TableMemory) : Prop := CellsWf m.cells

/-! ### Reading the memories -/

/-- The byte SRC holds at an offset below `SRC_CAP`: the last byte the host wrote there since reset, else a free value
(R30, R53). -/
def srcByte (s : State) (a : Nat) : Byte := (readCell s.src.cells a).getD (Config.freeSrcByte s.src.draw a)

/-- The byte DST holds at an offset below `DST_CAP`: an output byte, else a free value (R31, R54). -/
def dstByte (s : State) (a : Nat) : Byte := (readCell s.dst.cells a).getD (Config.freeDstByte s.dst.draw a)

/-- TBL entry `i`, `MemRead(TBL, i, 1)`: a free value while the table is not built (R8, R28). -/
def tblEntry (s : State) (i : Nat) : Word := (readCell s.tbl.cells i).getD (Config.freeTblEntry s.tbl.draw i)

/-- `MemRead(SRC, 0, n)` (R8). -/
def srcBytes (s : State) (n : Nat) : List Byte := (List.range n).map (srcByte s)

/-- `MemRead(DST, 0, n)` (R8). -/
def dstBytes (s : State) (n : Nat) : List Byte := (List.range n).map (dstByte s)

/-! ### Writing state -/

/-- `x[RESULT] <- v` (R24). -/
def setResult (v : Word) (s : State) : State := { s with result := v }

/-- The output of a DST-writing command: `MemWrite(DST, 0, n, out)`, every other byte of DST left unspecified, drawn
anew, and `x[DST_LEN] <- n` (R31, U13). -/
def putOutput (n : Nat) (out : List Byte) (s : State) : State :=
  { s with
    dst := { cells := cellsFrom 0 out, draw := s.draws }
    dstLen := BitVec.ofNat 32 n
    draws := s.draws + 1 }

/-- No output: every byte of DST left unspecified, drawn anew, and `x[DST_LEN] <- 0` (R193, U14). -/
def dropOutput (s : State) : State :=
  { s with
    dst := { cells := [], draw := s.draws }
    dstLen := 0#32
    draws := s.draws + 1 }

/-- The 256 cells of a built table: entry `n` is `crc_table(n)` (R28, R110). -/
def builtCells : List (Nat × Word) :=
  cellsFrom 0 ((List.range 256).map fun n => Fn.crcTable (BitVec.ofNat 8 n))

/-- The two writes of `ensure_table`: all 256 entries, then the flag (R116). -/
def buildTable (s : State) : State :=
  { s with tbl := { cells := builtCells, draw := s.tbl.draw }, tblValid := true }

/-- `ensure_table()` (R116): builds the table only while `TBL_VALID = 0`; otherwise nothing is written. -/
def ensureTable (s : State) : State := if s.tblValid then s else buildTable s

/-- `SRC[a] <- b` by the host: ignored at an offset of `SRC_CAP` or above (R53). -/
def writeSrc (a : Nat) (b : Byte) (s : State) : State :=
  if a < s.params.srcCap then { s with src := { cells := writeCell a b s.src.cells, draw := s.src.draw } } else s

/-! ### Ending a command in an error -/

/-- The DST-writing group: FILTER, STORE, ZPACK, CHUNK, ENCODE (R25). -/
def writesDst : Instr → Bool
  | .tblinit | .crc32 | .adler32 => false
  | .filter | .store | .zpack | .chunk | .encode => true

/-- `raise Error(code)` (R193), for the command that raised it, none for an illegal word: `ERRCODE` takes the code; a
DST-writing command also leaves no output; nothing else changes and nothing is saved. -/
def raiseError (command : Option Instr) (e : ErrorKind) (s : State) : State :=
  setErrcode e.code (if command.any writesDst then dropOutput s else s)

/-- How a command rule ends (R194: every check before any effect): with the first error its checks report, else in its
success state. The outcome is a next state either way (R229). -/
def finish (command : Instr) (error : Option ErrorKind) (success s : State) : Host.Outcome State Fault Refusal :=
  .next (match error with
    | some e => raiseError (some command) e s
    | none => complete success)

/-! ### Registers as the host reaches them, and reset -/

/-- The offset of a register in the REG space (R51). -/
def Reg.offset : Reg → Nat
  | .cmd => 0x00
  | .status => 0x04
  | .width => 0x08
  | .height => 0x0C
  | .channels => 0x10
  | .srcLen => 0x14
  | .ctype => 0x18
  | .result => 0x1C
  | .dstLen => 0x20

/-- The nine registers in the order of their offsets (R51). -/
def Reg.all : List Reg := [.cmd, .status, .width, .height, .channels, .srcLen, .ctype, .result, .dstLen]

/-- The register at a word index, none at a reserved offset or above the REG space (R51). -/
def Reg.atIndex (index : BitVec 30) : Option Reg := Reg.all.find? fun r => r.offset == 4 * index.toNat

/-- The word index of a register: its offset divided by 4. -/
def Reg.index (r : Reg) : BitVec 30 := BitVec.ofNat 30 (r.offset / 4)

/-- What a host read of a register returns; CMD holds no value and reads 0 (R26, R51). -/
def readReg (s : State) : Reg → Word
  | .cmd => 0#32
  | .status => s.status
  | .width => s.width
  | .height => s.height
  | .channels => s.channels
  | .srcLen => s.srcLen
  | .ctype => s.ctype
  | .result => s.result
  | .dstLen => s.dstLen

/-- A host write to a register that is not CMD: any value is stored in a read-write register, and a write to a
read-only register is ignored (R51). -/
def writeReg (r : Reg) (v : Word) (s : State) : State :=
  match r with
  | .cmd => s
  | .status => s
  | .width => { s with width := v }
  | .height => { s with height := v }
  | .channels => { s with channels := v }
  | .srcLen => { s with srcLen := v }
  | .ctype => { s with ctype := v }
  | .result => s
  | .dstLen => s

/-- The value a read transaction returns to the host (R64; R65: a byte is zero-extended). -/
def respond (v : Word) (s : State) : State := { s with response := some v }

/-- Reset (R220, R34): every register zero, no table, and every byte of the three memories unspecified, drawn anew. -/
def resetBlock (s : State) : State :=
  { s with
    width := 0#32, height := 0#32, channels := 0#32, srcLen := 0#32, ctype := 0#32
    result := 0#32, dstLen := 0#32, errcode := 0#4, tblValid := false
    tbl := { cells := [], draw := s.draws }
    src := { cells := [], draw := s.draws }
    dst := { cells := [], draw := s.draws }
    draws := s.draws + 1 }

end Sys2Proof.Machine
end

