-- ==== Sys2Proof/Machine/Datapath.lean ====
section
/-! DEFINITION. The datapath registers inside a command (`10_state.md` R29): `CRC_ACC`, `ADL_A` and `ADL_B`, 32 bits
wide and unsigned, initialised by each evaluation before they are read and holding nothing between commands (U15), so
they are local values here and no fields of State. The CRC loop reads its table from TBL (R111). -/

namespace Sys2Proof.Machine

/-- `crc32` in the engine: `crc_table(k)` is read as `MemRead(TBL, k, 1)`, `CRC_ACC` is the accumulator (R111, R29). -/
def crcEngine (s : State) (bytes : List Byte) : Word := Fn.crc32With (fun k => tblEntry s k.toNat) bytes

/-- The datapath registers `ADL_A` and `ADL_B` (R29). -/
structure AdlerRegs where
  a : Word
  b : Word
  deriving DecidableEq, Repr

/-- One byte into the 32-bit sums: `ADL_A` first, then `ADL_B` with the updated `ADL_A` (R113). -/
def adlByte (r : AdlerRegs) (x : Byte) : AdlerRegs :=
  { a := r.a + x.setWidth 32, b := r.b + (r.a + x.setWidth 32) }

/-- One chunk in the 32-bit sums: every byte, then both reduced modulo 65521 (R113, R225). -/
def adlChunk (r : AdlerRegs) (chunk : List Byte) : AdlerRegs :=
  let q := chunk.foldl adlByte r
  { a := q.a % 65521#32, b := q.b % 65521#32 }

/-- `adler32` in the engine (R113): `ADL_A = 1`, `ADL_B = 0`, chunks of at most `ADLER_CHUNK` bytes. -/
def adlerEngine (bytes : List Byte) : Word :=
  let r := (pieces Fn.adlerChunkLen bytes).foldl adlChunk { a := 1#32, b := 0#32 }
  (r.b <<< 16) ||| r.a

end Sys2Proof.Machine
end

