-- ==== Sys2Proof/Machine/Operands.lean ====
section
/-! DEFINITION. What a command reads (`30_encoding.md` R82: fixed locations, unsigned, at full width, sampled at the
write of CMD, R62), and its checks, each a function of the operand registers and the capacities alone (R194). -/

namespace Sys2Proof.Machine

/-- `W = x[WIDTH]` as a natural. -/
def opW (s : State) : Nat := s.width.toNat

/-- `H = x[HEIGHT]` as a natural. -/
def opH (s : State) : Nat := s.height.toNat

/-- `C = x[CHANNELS]` as a natural. -/
def opC (s : State) : Nat := s.channels.toNat

/-- `L = x[SRC_LEN]` as a natural (R22). -/
def opL (s : State) : Nat := s.srcLen.toNat

/-- The byte-sequence operand of every command but TBLINIT, `MemRead(SRC, 0, x[SRC_LEN])` (R22). -/
def opSrc (s : State) : List Byte := srcBytes s (opL s)

/-- The four type bytes of CHUNK, `be32(x[CTYPE])` (R23, R162). -/
def opType (s : State) : List Byte := be32 s.ctype

/-- `validate_image` on the image registers (R192). -/
def imageError (s : State) : Option ErrorKind := Fn.validateImage (opW s) (opH s) (opC s) (opL s)

/-- EmptyInput when `SRC_LEN = 0` (R190, code 6). -/
def emptyError (s : State) : Option ErrorKind := if opL s = 0 then some .emptyInput else none

/-- AllocationFailure when `SRC_LEN > SRC_CAP` (R190, code 4). -/
def sourceError (s : State) : Option ErrorKind := if opL s > s.params.srcCap then some .allocationFailure else none

/-- AllocationFailure when an output of `n` bytes exceeds `DST_CAP` (R190, code 4). -/
def outputError (n : Nat) (s : State) : Option ErrorKind :=
  if n > s.params.dstCap then some .allocationFailure else none

end Sys2Proof.Machine
end

