-- ==== Sys2Proof/Machine/Checksum.lean ====
section
/-! DEFINITION. ChecksumEngine commands: TBLINIT, CRC32, ADLER32 (`40_checksum.md` R115, R117, R118). -/

namespace Sys2Proof.Machine

/-- `TBLINIT` (R115): build the table if it is not built; it cannot fail. -/
def execTblinit (s : State) : Host.Outcome State Fault Refusal := finish .tblinit none (ensureTable s) s

/-- `CRC32` (R117): the CRC-32 of the source bytes into RESULT, through the table. -/
def execCrc32 (s : State) : Host.Outcome State Fault Refusal :=
  finish .crc32 (sourceError s) (setResult (crcEngine (ensureTable s) (opSrc s)) (ensureTable s)) s

/-- `ADLER32` (R118): the Adler-32 of the source bytes into RESULT; no table. -/
def execAdler32 (s : State) : Host.Outcome State Fault Refusal :=
  finish .adler32 (sourceError s) (setResult (adlerEngine (opSrc s)) s) s

end Sys2Proof.Machine
end

