-- ==== Sys2Proof/Machine/Chunk.lean ====
section
/-! DEFINITION. The ChunkBuilder command: CHUNK (`43_chunk.md` R161). -/

namespace Sys2Proof.Machine

/-- `N`, the output length of CHUNK (R161). -/
def chunkOutLen (s : State) : Nat := Fn.chunkLength (opL s)

/-- The checks of CHUNK in order (R161, R192). -/
def chunkError (s : State) : Option ErrorKind := (sourceError s).or (outputError (chunkOutLen s) s)

/-- `CHUNK` (R161): one PNG chunk of type `be32(x[CTYPE])` around the source bytes into DST; RESULT is not written. -/
def execChunk (s : State) : Host.Outcome State Fault Refusal :=
  finish .chunk (chunkError s)
    (putOutput (chunkOutLen s) (Fn.chunkWith (crcEngine (ensureTable s)) (opType s) (opSrc s)) (ensureTable s)) s

end Sys2Proof.Machine
end

