-- ==== Sys2Proof/Machine/Deflate.lean ====
section
/-! DEFINITION. StoredBlockPacker commands: STORE and ZPACK (`42_deflate_zlib.md` R145, R146). -/

namespace Sys2Proof.Machine

/-- `N`, the output length of STORE (R145). -/
def storeOutLen (s : State) : Nat := Fn.storedLength (opL s)

/-- `N`, the output length of ZPACK (R146). -/
def zpackOutLen (s : State) : Nat := Fn.zlibLength (opL s)

/-- The checks of STORE and ZPACK in order, for an output of `n` bytes (R145, R146, R192). -/
def packError (n : Nat) (s : State) : Option ErrorKind :=
  (emptyError s).or ((sourceError s).or (outputError n s))

/-- `STORE` (R145): the stored-block stream of the source bytes into DST. -/
def execStore (s : State) : Host.Outcome State Fault Refusal :=
  finish .store (packError (storeOutLen s) s) (putOutput (storeOutLen s) (Fn.storedBlocks (opSrc s)) s) s

/-- `ZPACK` (R146): the zlib stream of the source bytes into DST; RESULT is not written. -/
def execZpack (s : State) : Host.Outcome State Fault Refusal :=
  finish .zpack (packError (zpackOutLen s) s) (putOutput (zpackOutLen s) (Fn.zlibWrapWith adlerEngine (opSrc s)) s) s

end Sys2Proof.Machine
end

