-- ==== Sys2Proof/Machine/Encode.lean ====
section
/-! DEFINITION. The Encoder facade command: ENCODE (`44_encode.md` R174). -/

namespace Sys2Proof.Machine

/-- `N`, the output length of ENCODE (R173, R174). -/
def encodeOutLen (s : State) : Nat := Fn.encodedLength (opW s) (opH s) (opC s)

/-- The checks of ENCODE in order (R174, R192). -/
def encodeError (s : State) : Option ErrorKind :=
  (imageError s).or ((sourceError s).or (outputError (encodeOutLen s) s))

/-- `ENCODE` (R174): the PNG file of the image in SRC into DST. -/
def execEncode (s : State) : Host.Outcome State Fault Refusal :=
  finish .encode (encodeError s)
    (putOutput (encodeOutLen s)
      (Fn.encodeWith (crcEngine (ensureTable s)) adlerEngine (opW s) (opH s) (opC s) (opSrc s)) (ensureTable s)) s

end Sys2Proof.Machine
end

