-- ==== Sys2Proof/Machine/Filter.lean ====
section
/-! DEFINITION. The ScanlineFilterer command: FILTER (`41_filter.md` R131). -/

namespace Sys2Proof.Machine

/-- `F`, the output length of FILTER (R131). -/
def filterOutLen (s : State) : Nat := Fn.filteredLength (opW s) (opH s) (opC s)

/-- The checks of FILTER in order (R131, R192). -/
def filterError (s : State) : Option ErrorKind :=
  (imageError s).or ((sourceError s).or (outputError (filterOutLen s) s))

/-- `FILTER` (R131): the filtered bitmap of the image in SRC into DST. -/
def execFilter (s : State) : Host.Outcome State Fault Refusal :=
  finish .filter (filterError s)
    (putOutput (filterOutLen s) (Fn.filter (opSrc s) (opW s) (opH s) (opC s)) s) s

end Sys2Proof.Machine
end

