-- ==== Sys2Proof/Machine/Dispatch.lean ====
section
/-! DEFINITION. The dispatch of a legal command to its rule (`30_encoding.md` R84): one arm per constructor of Instr. -/

namespace Sys2Proof.Machine

def exec (i : Instr) (s : State) : Host.Outcome State Fault Refusal :=
  match i with
  -- ChecksumEngine (40_checksum.md)
  | .tblinit => Sys2Proof.Machine.execTblinit s
  | .crc32 => Sys2Proof.Machine.execCrc32 s
  | .adler32 => Sys2Proof.Machine.execAdler32 s
  -- ScanlineFilterer (41_filter.md)
  | .filter => Sys2Proof.Machine.execFilter s
  -- StoredBlockPacker (42_deflate_zlib.md)
  | .store => Sys2Proof.Machine.execStore s
  | .zpack => Sys2Proof.Machine.execZpack s
  -- ChunkBuilder (43_chunk.md)
  | .chunk => Sys2Proof.Machine.execChunk s
  -- Encoder facade (44_encode.md)
  | .encode => Sys2Proof.Machine.execEncode s

end Sys2Proof.Machine
end

