-- ==== Sys2Proof/Machine/Transact.lean ====
section
/-! DEFINITION. What each host transaction does (`20_memory.md` R51 to R54, R64), and the issue of a command word
(`30_encoding.md` R84). Each is one atomic step (R58, R60). -/

namespace Sys2Proof.Machine

/-- `issue(v)` (R84): a legal word runs its command; an illegal one ends with IllegalCommand and changes nothing but
`ERRCODE` (R83). -/
def issue (v : Word) (s : State) : Host.Outcome State Fault Refusal :=
  match decode v with
  | .ok i => exec i s
  | .error _ => .next (raiseError none .illegalCommand s)

/-- `RegWrite` (R51, R64): a write to CMD issues the word; a reserved offset ignores the write. -/
def hostRegWrite (index : BitVec 30) (v : Word) (s : State) : Host.Outcome State Fault Refusal :=
  match Reg.atIndex index with
  | some .cmd => issue v s
  | some r => .next (writeReg r v s)
  | none => .next s

/-- What `RegRead` returns (R51): a reserved offset reads 0. -/
def hostRegRead (s : State) (index : BitVec 30) : Word :=
  match Reg.atIndex index with
  | some r => readReg s r
  | none => 0#32

/-- What `SrcRead` returns, zero-extended (R53): 0 at an offset of `SRC_CAP` or above. -/
def hostSrcRead (s : State) (a : Word) : Word :=
  if a.toNat < s.params.srcCap then (srcByte s a.toNat).setWidth 32 else 0#32

/-- What `DstRead` returns, zero-extended (R54): 0 at an offset of `DST_CAP` or above. -/
def hostDstRead (s : State) (a : Word) : Word :=
  if a.toNat < s.params.dstCap then (dstByte s a.toNat).setWidth 32 else 0#32

/-- What `TblRead` returns (R52): 0 at an index above 255. -/
def hostTblRead (s : State) (i : Word) : Word := if i.toNat ≤ 255 then tblEntry s i.toNat else 0#32

/-- One host transaction (R64). A read changes nothing but the returned value; a write to DST or TBL is ignored. -/
def transact (t : Transaction) (s : State) : Host.Outcome State Fault Refusal :=
  match t with
  | .regWrite index v => hostRegWrite index v s
  | .regRead index => .next (respond (hostRegRead s index) s)
  | .srcWrite a b => .next (writeSrc a.toNat b s)
  | .srcRead a => .next (respond (hostSrcRead s a) s)
  | .dstWrite _ _ => .next s
  | .dstRead a => .next (respond (hostDstRead s a) s)
  | .tblWrite _ _ => .next s
  | .tblRead i => .next (respond (hostTblRead s i) s)
  | .reset => .next (resetBlock s)

/-- The block takes the host's next transaction; with none it is idle and holds all its state (R60, R199). -/
def performNext (s : State) : Host.Outcome State Fault Refusal :=
  match s.pending with
  | [] => .next s
  | t :: rest => transact t { s with pending := rest, response := none }

/-- The state in which the host's next transaction is the write of a command word to CMD. -/
def issueNext (v : Word) (s : State) : State := { s with pending := .regWrite Reg.cmd.index v :: s.pending }

end Sys2Proof.Machine
end

