-- ==== Sys2Proof/Machine/Step.lean ====
section
/-! DEFINITION. One step of the machine: one host transaction (R60: the block acts only on one, atomically). There is
no program counter and no fetch (R32); the command word is the value of the CMD write itself (R62). -/

namespace Sys2Proof.Machine

/-- One step: the host's next transaction. -/
def step (s : State) : Host.Outcome State Fault Refusal := performNext s

/-- `s` with the host about to write to CMD the command word whose bits below `nbits` are those of `w` (log 3). -/
def State.withFetchWord (s : State) (nbits w : Nat) : State := issueNext (BitVec.ofNat 32 (w % 2 ^ nbits)) s

end Sys2Proof.Machine
end

