-- ==== Sys2Proof/Machine/Wire.lean ====
section
/-! DEFINITION. Host transactions as bus requests and script lines: the request channel of `20_memory.md` R65 and the
encodings of `30_encoding.md` R86, the pseudo-instructions of R87, and the flat map of R59. The step reads none of
this: it takes transactions (R64). -/

namespace Sys2Proof.Machine

/-- The fields of the request channel (R65); `write` is `req_write`. -/
structure Request where
  space : BitVec 2
  write : Bool
  addr : Word
  wdata : Word
  deriving DecidableEq, Repr

/-- The byte offset of a REG word index (R51, R57). -/
def regOffset (index : BitVec 30) : Word := index ++ 0#2

/-- The request of a transaction (R86): spaces 0 REG, 1 TBL, 2 SRC, 3 DST; a read carries no data (0 here); Reset is
the `rst` pin and no request. -/
def Transaction.toRequest : Transaction → Option Request
  | .regWrite index v => some { space := 0#2, write := true, addr := regOffset index, wdata := v }
  | .regRead index => some { space := 0#2, write := false, addr := regOffset index, wdata := 0#32 }
  | .tblWrite i v => some { space := 1#2, write := true, addr := i, wdata := v }
  | .tblRead i => some { space := 1#2, write := false, addr := i, wdata := 0#32 }
  | .srcWrite a b => some { space := 2#2, write := true, addr := a, wdata := b.setWidth 32 }
  | .srcRead a => some { space := 2#2, write := false, addr := a, wdata := 0#32 }
  | .dstWrite a b => some { space := 3#2, write := true, addr := a, wdata := b.setWidth 32 }
  | .dstRead a => some { space := 3#2, write := false, addr := a, wdata := 0#32 }
  | .reset => none

/-- The transaction of a request (R65, R86): bits 7:0 of the data for a byte space; none for a REG offset that is no
multiple of 4, which no transaction expresses (R57). -/
def Request.toTransaction (r : Request) : Option Transaction :=
  if r.space = 0#2 then
    if r.addr.extractLsb' 0 2 = 0#2 then
      some (if r.write then .regWrite (r.addr.extractLsb' 2 30) r.wdata else .regRead (r.addr.extractLsb' 2 30))
    else none
  else if r.space = 1#2 then some (if r.write then .tblWrite r.addr r.wdata else .tblRead r.addr)
  else if r.space = 2#2 then some (if r.write then .srcWrite r.addr (r.wdata.extractLsb' 0 8) else .srcRead r.addr)
  else some (if r.write then .dstWrite r.addr (r.wdata.extractLsb' 0 8) else .dstRead r.addr)

/-- `WR <REG>, <value>` (R86). -/
def scriptWr (r : Reg) (v : Word) : Transaction := .regWrite r.index v

/-- `RD <REG>` (R86). -/
def scriptRd (r : Reg) : Transaction := .regRead r.index

/-- `<MNEMONIC>` (R86): the write of the command word to CMD. -/
def scriptCommand (i : Instr) : Transaction := scriptWr .cmd (encode i)

/-- The `SB` lines of `LDSRC` from offset `a` (R87). -/
def scriptBytes (a : Nat) (bytes : List Byte) : List Transaction :=
  (cellsFrom a bytes).map fun c => .srcWrite (BitVec.ofNat 32 c.1) c.2

/-- `LDSRC b0 b1 …` (R87): the bytes from offset 0, then `SRC_LEN`. -/
def scriptLdsrc (bytes : List Byte) : List Transaction :=
  scriptBytes 0 bytes ++ [scriptWr .srcLen (BitVec.ofNat 32 bytes.length)]

/-- `SETIMG w, h, c` (R87). -/
def scriptSetimg (w h c : Word) : List Transaction := [scriptWr .width w, scriptWr .height h, scriptWr .channels c]

/-- `SETTYPE "abcd"` (R87), for the four ASCII codes in order: `WR CTYPE, v` with `be32(v)` those bytes. -/
def scriptSettype (a b c d : Byte) : List Transaction := [scriptWr .ctype (a ++ b ++ c ++ d)]

/-- `EXPECT <REG> = v` (R87): a read and the value it must return. -/
def scriptExpect (r : Reg) (v : Word) : List (Transaction × Word) := [(scriptRd r, v)]

/-- `EXPECTDST b0 …` (R87): `DST_LEN` and every output byte, each read with the value it must return. -/
def scriptExpectDst (bytes : List Byte) : List (Transaction × Word) :=
  scriptExpect .dstLen (BitVec.ofNat 32 bytes.length)
    ++ (cellsFrom 0 bytes).map fun c => (.dstRead (BitVec.ofNat 32 c.1), c.2.setWidth 32)

/-- Whether the reads of an expectation all return the values they must (R87). A read changes no block state (R58), so
each is done on the same state. -/
def expectationMet (reads : List (Transaction × Word)) (s : State) : Bool :=
  reads.all fun e => match transact e.1 s with
    | .next t => t.response == some e.2
    | .fault _ => false
    | .refused _ => false

/-- Where a platform places the four spaces (R5, R59: open, no rule depends on them). -/
structure FlatMap where
  regBase : Nat
  tblBase : Nat
  srcBase : Nat
  dstBase : Nat
  deriving DecidableEq, Repr

/-- The flat byte address a transaction reaches (R59: TBL entry `i` at `TBL_BASE + 4*i`); Reset has none. -/
def FlatMap.address (m : FlatMap) : Transaction → Option Nat
  | .regWrite index _ | .regRead index => some (m.regBase + 4 * index.toNat)
  | .tblWrite i _ | .tblRead i => some (m.tblBase + 4 * i.toNat)
  | .srcWrite a _ | .srcRead a => some (m.srcBase + a.toNat)
  | .dstWrite a _ | .dstRead a => some (m.dstBase + a.toNat)
  | .reset => none

end Sys2Proof.Machine
end

