-- ==== Sys2Proof/Safety.lean ====
section
/-! DEFINITION. What counts as a safe state, in the terms the statements use: the invariant every step keeps, the
table condition of R28, the error codes of R190 to R192 as numbers, the inverses of the packer and the filter
(R144 (f), R132 (b)) that the round trip of R176 (b) is stated with, and the rows of the script table of R86. -/

namespace Sys2Proof.Machine

/-- R28: `TBL_VALID = 1` implies that every entry of TBL is the CRC table's. -/
def TableOk (s : State) : Prop := s.tblValid = true → ∀ n, n < 256 → tblEntry s n = Fn.crcTable (BitVec.ofNat 8 n)

/-- The table is built: every entry of TBL is the CRC table's. -/
def TableBuilt (s : State) : Prop := s.tblValid = true ∧ ∀ n, n < 256 → tblEntry s n = Fn.crcTable (BitVec.ofNat 8 n)

/-- The invariant of the machine. A state that breaks it is reached from no state that meets it. -/
structure State.Inv (s : State) : Prop where
  /-- R5: the capacities are in range. -/
  params : s.params.wellFormed = true
  /-- The SRC memory is in its canonical form. -/
  srcWf : s.src.wf
  /-- The DST memory is in its canonical form. -/
  dstWf : s.dst.wf
  /-- The TBL memory is in its canonical form. -/
  tblWf : s.tbl.wf
  /-- R30: SRC has offsets 0 to `SRC_CAP - 1` only. -/
  srcRange : ∀ c ∈ s.src.cells, c.1 < s.params.srcCap
  /-- R31: the bytes of DST that are specified are those at the offsets below `DST_LEN`. -/
  dstOutput : s.dst.cells.map Prod.fst = List.range s.dstLen.toNat
  /-- R25: an output fits DST. -/
  dstFits : s.dstLen.toNat ≤ s.params.dstCap
  /-- R27: codes 7 to 15 are never produced. -/
  errcodeRange : s.errcode.toNat ≤ 6
  /-- R28: a valid table is the CRC table. -/
  table : TableOk s
  /-- R28: while the table is not built, no entry is specified. -/
  tableUnbuilt : s.tblValid = false → s.tbl.cells = []
  /-- The model's own: a free-value draw in use is not drawn again (log 2). -/
  drawsFresh : s.src.draw < s.draws ∧ s.dst.draw < s.draws ∧ s.tbl.draw < s.draws

/-- The code of FILTER or ENCODE for an output of `n` bytes, the first that applies in the order of R192; 0 for none. -/
def imageCode (W H C L n srcCap dstCap : Nat) : BitVec 4 :=
  if W = 0 ∨ H = 0 then 1#4
  else if ¬(C = 3 ∨ C = 4) then 3#4
  else if L ≠ W * H * C then 2#4
  else if srcCap < L then 4#4
  else if dstCap < n then 4#4
  else 0#4

/-- The code of STORE or ZPACK for an output of `n` bytes, in the order of R192; 0 for none. -/
def packCode (L n srcCap dstCap : Nat) : BitVec 4 :=
  if L = 0 then 6#4 else if srcCap < L then 4#4 else if dstCap < n then 4#4 else 0#4

/-- The code of CHUNK for an output of `n` bytes, in the order of R192; 0 for none. -/
def chunkCode (L n srcCap dstCap : Nat) : BitVec 4 :=
  if srcCap < L then 4#4 else if dstCap < n then 4#4 else 0#4

/-- What a DST-writing command that ends with a code leaves (R193): the code, no output, no byte of DST specified, and
nothing else changed. `draws` is the model's own (log 2): nothing is said of it. -/
def OutputLost (code : BitVec 4) (s t : State) : Prop :=
  t = { s with errcode := code, dstLen := 0#32, dst := t.dst, draws := t.draws } ∧ t.dst.cells = []

/-- R144 (f): the payloads of `k` stored blocks, each after its 5 header bytes, block `i` starting at `65540 * i`. -/
def stripBlocks (k : Nat) (stream : List Byte) : List Byte :=
  (List.range k).flatMap fun i => slice stream (i * 65540 + 5) (min ((i + 1) * 65540) stream.length)

/-- R132 (b): a filtered bitmap of `H` rows of `RB` bytes without its filter-type bytes. -/
def stripFilter (H RB : Nat) (rows : List Byte) : List Byte :=
  (List.range H).flatMap fun y => slice rows (y * (RB + 1) + 1) ((y + 1) * (RB + 1))

/-- Transaction `t` is carried by the request with the given `(space, write, address, data)`, a row of the table of R86
with its address and data as numbers and no data for a read (`-`), and that request is read back as `t` (R65). -/
def CarriedBy (t : Transaction) (space : BitVec 2) (write : Bool) (addr : Nat) (data : Option Nat) : Prop :=
  ∃ r, t.toRequest = some r ∧ r.space = space ∧ r.write = write ∧ r.addr.toNat = addr ∧
    (∀ d, data = some d → r.wdata.toNat = d) ∧ r.toTransaction = some t

/-- Two states agree on what command `i` reads (R82), whatever their other registers, TBL and unspecified bytes. -/
def SameOperands (i : Instr) (s u : State) : Prop :=
  s.params = u.params ∧
  ((i = .filter ∨ i = .encode) → s.width = u.width ∧ s.height = u.height ∧ s.channels = u.channels) ∧
  (i = .chunk → s.ctype = u.ctype) ∧
  (i ≠ .tblinit → s.srcLen = u.srcLen ∧ ∀ a, a < s.srcLen.toNat → srcByte s a = srcByte u a)

end Sys2Proof.Machine
end

