-- ==== Sys2Proof/Certificates/Slice0/Obligations.lean ====
section
/-! DEFINITION. The statements about PNGCORE for the provers, each from the numbered rules its docstring names. -/

open Sys2Proof Sys2Proof.Machine

/-! ### The command word -/

/-- R81: the eight command words and the opcodes that name none. -/
def Obligations.CommandWordsDecode : Prop :=
  decode 0x00000001#32 = .ok .tblinit ∧ decode 0x00000002#32 = .ok .crc32 ∧ decode 0x00000003#32 = .ok .adler32 ∧
  decode 0x00000004#32 = .ok .filter ∧ decode 0x00000005#32 = .ok .store ∧ decode 0x00000006#32 = .ok .zpack ∧
  decode 0x00000007#32 = .ok .chunk ∧ decode 0x00000008#32 = .ok .encode ∧
  decode 0x00000000#32 = .error .opcodeZero ∧ decode 0x00000009#32 = .error .opcodeUnassigned ∧
  decode 0x000000FF#32 = .error .opcodeUnassigned ∧ decode 0x00000101#32 = .error .reservedBitsSet

/-- R80, R81, R85: decoding the word of a command gives it back, and a word that decodes is the word of its command,
so that no bit of a word is dropped. -/
def Obligations.DecodeInvertsEncode : Prop :=
  (∀ i, decode (encode i) = .ok i) ∧ ∀ v i, decode v = .ok i → v = encode i

/-- R83, R84: a word names a command exactly when its reserved bits are zero and its opcode is 1 to 8. -/
def Obligations.DecodesExactlyLegalWords : Prop :=
  ∀ v : Word, (∃ i, decode v = .ok i) ↔ (v.toNat / 256 = 0 ∧ 1 ≤ v.toNat % 256 ∧ v.toNat % 256 ≤ 8)

/-- R83: a word that is not legal, issued by a write of CMD, ends with code 5, and nothing else changes, not even
`DST_LEN`. -/
def Obligations.IllegalWordOnlySetsErrcode : Prop :=
  ∀ (s : State) (v : Word), ¬(v.toNat / 256 = 0 ∧ 1 ≤ v.toNat % 256 ∧ v.toNat % 256 ≤ 8) →
    issue v s = .next { s with errcode := 5#4 }

/-- R84: the step at a write of a legal word to CMD is the command, on the state the transaction has left the queue of.
The queue and the returned value are the model's own form of R64 (log 3), here and in the statements on the host
interface. -/
def Obligations.StepRunsIssuedCommand : Prop :=
  ∀ (s : State) (v : Word) (i : Instr) (rest : List Transaction), s.pending = .regWrite 0#30 v :: rest →
    decode v = .ok i → step s = exec i { s with pending := rest, response := none }

/-! ### The host interface -/

/-- R199, R60: with no transaction to perform the block is idle and holds all its state. -/
def Obligations.IdleHoldsAllState : Prop := ∀ s : State, s.pending = [] → step s = .next s

/-- R229, R195, R197: every step answers a next state: the block never faults, refuses or hangs. -/
def Obligations.EveryStepAnswersNext : Prop := ∀ s : State, ∃ t, step s = .next t

/-- R51: what a host write and a host read of every REG offset do, reserved offsets and read-only registers included; a
write of CMD (offset 0) issues the word. -/
def Obligations.RegisterMapAnswersHost : Prop :=
  (∀ (s : State) (k : BitVec 30) (v : Word) (rest : List Transaction), s.pending = .regWrite k v :: rest →
    4 * k.toNat = 0x00 → step s = issue v { s with pending := rest, response := none }) ∧
  (∀ (s : State) (k : BitVec 30) (v : Word) (rest : List Transaction), s.pending = .regWrite k v :: rest →
    4 * k.toNat ≠ 0x00 →
    step s = .next { s with
      width := if 4 * k.toNat = 0x08 then v else s.width
      height := if 4 * k.toNat = 0x0C then v else s.height
      channels := if 4 * k.toNat = 0x10 then v else s.channels
      srcLen := if 4 * k.toNat = 0x14 then v else s.srcLen
      ctype := if 4 * k.toNat = 0x18 then v else s.ctype
      pending := rest, response := none }) ∧
  (∀ (s : State) (k : BitVec 30) (rest : List Transaction), s.pending = .regRead k :: rest →
    step s = .next { s with
      pending := rest
      response := some (
        if 4 * k.toNat = 0x04 then BitVec.ofNat 32 (s.tblValid.toNat + 256 * s.errcode.toNat)
        else if 4 * k.toNat = 0x08 then s.width
        else if 4 * k.toNat = 0x0C then s.height
        else if 4 * k.toNat = 0x10 then s.channels
        else if 4 * k.toNat = 0x14 then s.srcLen
        else if 4 * k.toNat = 0x18 then s.ctype
        else if 4 * k.toNat = 0x1C then s.result
        else if 4 * k.toNat = 0x20 then s.dstLen
        else 0#32) })

/-- R53: host writes and reads of SRC, and that no command changes it. A byte not written since reset, beside written
ones too, reads as a free value, in the model's form of one (log 2). -/
def Obligations.SourceSpaceAnswersHost : Prop :=
  (∀ (s : State) (a : Word) (b : Byte) (rest : List Transaction), s.pending = .srcWrite a b :: rest →
    a.toNat < s.params.srcCap →
    ∃ t, step s = .next t ∧ srcByte t a.toNat = b ∧ (∀ c, c ≠ a.toNat → srcByte t c = srcByte s c) ∧
      t = { s with src := t.src, pending := rest, response := none }) ∧
  (∀ (s : State) (a : Word) (b : Byte) (rest : List Transaction), s.pending = .srcWrite a b :: rest →
    s.params.srcCap ≤ a.toNat → step s = .next { s with pending := rest, response := none }) ∧
  (∀ (s : State) (a : Word) (rest : List Transaction), s.pending = .srcRead a :: rest →
    step s = .next { s with
      pending := rest
      response := some (if a.toNat < s.params.srcCap then (srcByte s a.toNat).setWidth 32 else 0#32) }) ∧
  (∀ (s : State) (a : Nat), readCell s.src.cells a = none → srcByte s a = Config.freeSrcByte s.src.draw a) ∧
  (∀ (i : Instr) (s t : State), exec i s = .next t → t.src = s.src)

/-- R54: the host reads DST byte by byte and cannot write it. -/
def Obligations.DestinationSpaceAnswersHost : Prop :=
  (∀ (s : State) (a : Word) (b : Byte) (rest : List Transaction), s.pending = .dstWrite a b :: rest →
    step s = .next { s with pending := rest, response := none }) ∧
  (∀ (s : State) (a : Word) (rest : List Transaction), s.pending = .dstRead a :: rest →
    step s = .next { s with
      pending := rest
      response := some (if a.toNat < s.params.dstCap then (dstByte s a.toNat).setWidth 32 else 0#32) })

/-- R52: a host write to TBL is ignored, an index above 255 reads 0, and an entry reads as `crc_table(i)` when the
table is valid and as a free value, in the model's form of one (log 2), while no entry is known. -/
def Obligations.TableSpaceAnswersHost : Prop :=
  (∀ (s : State) (i v : Word) (rest : List Transaction), s.pending = .tblWrite i v :: rest →
    step s = .next { s with pending := rest, response := none }) ∧
  (∀ (s : State) (i : Word) (rest : List Transaction), s.pending = .tblRead i :: rest → 255 < i.toNat →
    step s = .next { s with pending := rest, response := some 0#32 }) ∧
  (∀ (s : State) (i : Word) (rest : List Transaction), s.pending = .tblRead i :: rest → i.toNat ≤ 255 →
    TableBuilt s →
    step s = .next { s with pending := rest, response := some (Fn.crcTable (BitVec.ofNat 8 i.toNat)) }) ∧
  (∀ (s : State) (i : Word) (rest : List Transaction), s.pending = .tblRead i :: rest → i.toNat ≤ 255 →
    s.tbl.cells = [] →
    step s = .next { s with pending := rest, response := some (Config.freeTblEntry s.tbl.draw i.toNat) })

/-- R58: every read is idempotent and changes nothing: done twice in a row it returns the same value, and the block is
left as it was. -/
def Obligations.ReadsAreIdempotent : Prop :=
  ∀ (s t u : State) (r : Transaction) (rest : List Transaction),
    (∃ k, r = .regRead k) ∨ (∃ a, r = .srcRead a) ∨ (∃ a, r = .dstRead a) ∨ (∃ i, r = .tblRead i) →
    s.pending = r :: r :: rest → step s = .next t → step t = .next u →
    u.response = t.response ∧ { u with pending := s.pending, response := s.response } = s

/-- R34, R220: the Reset transaction, from every state: every register zero, the table not valid, no byte of a memory
specified; the host's further transactions are kept. -/
def Obligations.ResetTransactionClearsBlock : Prop :=
  ∀ (s : State) (rest : List Transaction), s.pending = .reset :: rest →
    ∃ t, step s = .next t ∧ t.width = 0#32 ∧ t.height = 0#32 ∧ t.channels = 0#32 ∧ t.srcLen = 0#32 ∧
      t.ctype = 0#32 ∧ t.result = 0#32 ∧ t.dstLen = 0#32 ∧ t.errcode = 0#4 ∧ t.tblValid = false ∧
      t.status = 0#32 ∧ t.tbl.cells = [] ∧ t.src.cells = [] ∧ t.dst.cells = [] ∧
      t.params = s.params ∧ t.pending = rest ∧ t.response = none

/-- R34: the state after reset: every register reads zero and no byte of a memory is specified. -/
def Obligations.ResetStateIsZero : Prop :=
  (∀ r : Reg, readReg State.reset r = 0#32) ∧ State.reset.tblValid = false ∧ State.reset.errcode = 0#4 ∧
  State.reset.tbl.cells = [] ∧ State.reset.src.cells = [] ∧ State.reset.dst.cells = []

/-- R86, R65: the space, direction, address and data of every transaction's request, which is read back as the
transaction; a command's line writes its word at offset 0; Reset is the `rst` pin and no request. A REG access is at byte
offset four times its word index (log 5, DEDUCED); the writes of TBL and DST, which R86 does not list, take R65's space
numbers and fields (log 8, DEDUCED). -/
def Obligations.RequestsCarryTransactions : Prop :=
  (∀ (k : BitVec 30) (v : Word), CarriedBy (.regWrite k v) 0#2 true (4 * k.toNat) (some v.toNat)) ∧
  (∀ k : BitVec 30, CarriedBy (.regRead k) 0#2 false (4 * k.toNat) none) ∧
  (∀ i v : Word, CarriedBy (.tblWrite i v) 1#2 true i.toNat (some v.toNat)) ∧
  (∀ i : Word, CarriedBy (.tblRead i) 1#2 false i.toNat none) ∧
  (∀ (a : Word) (b : Byte), CarriedBy (.srcWrite a b) 2#2 true a.toNat (some b.toNat)) ∧
  (∀ a : Word, CarriedBy (.srcRead a) 2#2 false a.toNat none) ∧
  (∀ (a : Word) (b : Byte), CarriedBy (.dstWrite a b) 3#2 true a.toNat (some b.toNat)) ∧
  (∀ a : Word, CarriedBy (.dstRead a) 3#2 false a.toNat none) ∧
  (∀ i : Instr, CarriedBy (scriptCommand i) 0#2 true 0x00 (some (encode i).toNat)) ∧
  Transaction.toRequest .reset = none

/-! ### The invariant, and what no command changes -/

/-- The invariant holds at reset. -/
def Obligations.ResetMeetsInvariant : Prop := State.Inv State.reset

/-- The headline: every step, whatever transaction it performs, keeps the invariant, from every state that meets it:
the memories' canonical form, R5, R25, R27, R28, R30, R31. -/
def Obligations.StepKeepsInvariant : Prop := ∀ s t : State, s.Inv → step s = .next t → t.Inv

/-- R5: no step changes the capacities of the instance. -/
def Obligations.StepKeepsCapacities : Prop := ∀ s t : State, step s = .next t → t.params = s.params

/-- R28: once built, the table is immutable until reset. -/
def Obligations.BuiltTableIsImmutable : Prop :=
  ∀ (s t : State), s.pending.head? ≠ some .reset → s.tblValid = true → step s = .next t →
    t.tblValid = true ∧ t.tbl = s.tbl

/-- R27, R82, R116: `TBL_VALID` becomes 1 in a TBLINIT, CRC32, CHUNK or ENCODE that completes without error, and no
command changes it otherwise: a failed command does not build the table. -/
def Obligations.TableFlagSetOnlyByTableCommands : Prop :=
  ∀ (i : Instr) (s t : State), exec i s = .next t →
    t.tblValid = (s.tblValid || ((i == .tblinit || i == .crc32 || i == .chunk || i == .encode) && t.errcode == 0#4))

/-- R30, R228: SRC changes only by a host write to it and by Reset. -/
def Obligations.SourceChangesOnlyByHost : Prop :=
  ∀ (s t : State), s.pending.head? ≠ some .reset → (∀ a b, s.pending.head? ≠ some (.srcWrite a b)) →
    step s = .next t → t.src = s.src

/-- R24: every command other than CRC32 and ADLER32, and every command that ends in error, leaves RESULT unchanged. -/
def Obligations.ResultKeptUnlessChecksumCompletes : Prop :=
  ∀ (i : Instr) (s t : State), exec i s = .next t →
    (i ≠ .crc32 ∧ i ≠ .adler32) ∨ t.errcode ≠ 0#4 → t.result = s.result

/-- Frame of TBLINIT, CRC32 and ADLER32 (R82, R115, R117, R118): every operand register, DST_LEN, every byte of SRC and
of DST, and the model's own fields are unchanged; TBLINIT leaves RESULT, ADLER32 leaves TBL and its flag. -/
def Obligations.ChecksumCommandsFrame : Prop :=
  ∀ (i : Instr) (s t : State), i = .tblinit ∨ i = .crc32 ∨ i = .adler32 → exec i s = .next t →
    t.params = s.params ∧ t.width = s.width ∧ t.height = s.height ∧ t.channels = s.channels ∧
    t.srcLen = s.srcLen ∧ t.ctype = s.ctype ∧ t.dstLen = s.dstLen ∧
    (∀ a, srcByte t a = srcByte s a) ∧ (∀ a, dstByte t a = dstByte s a) ∧
    t.draws = s.draws ∧ t.pending = s.pending ∧ t.response = s.response ∧
    (i = .tblinit → t.result = s.result) ∧
    (i = .adler32 → t.tblValid = s.tblValid ∧ ∀ n, tblEntry t n = tblEntry s n) ∧
    (s.tblValid = true → ∀ n, tblEntry t n = tblEntry s n)

/-- Frame of FILTER, STORE, ZPACK, CHUNK and ENCODE (R82): every operand register, RESULT, every byte of SRC and the
host's queue are unchanged; FILTER, STORE and ZPACK leave TBL and its flag, CHUNK and ENCODE a table already built. DST
is what they write: the bytes below DST_LEN are the output (the statements of the commands), and every other byte of
DST is unspecified after them (R31, R193), so none is claimed unchanged. -/
def Obligations.OutputCommandsFrame : Prop :=
  ∀ (i : Instr) (s t : State), i = .filter ∨ i = .store ∨ i = .zpack ∨ i = .chunk ∨ i = .encode →
    exec i s = .next t →
    t.params = s.params ∧ t.width = s.width ∧ t.height = s.height ∧ t.channels = s.channels ∧
    t.srcLen = s.srcLen ∧ t.ctype = s.ctype ∧ t.result = s.result ∧
    (∀ a, srcByte t a = srcByte s a) ∧ t.pending = s.pending ∧ t.response = s.response ∧
    (i = .filter ∨ i = .store ∨ i = .zpack → t.tblValid = s.tblValid ∧ ∀ n, tblEntry t n = tblEntry s n) ∧
    (s.tblValid = true → ∀ n, tblEntry t n = tblEntry s n)

/-! ### Errors -/

/-- R191, R192: which code every command ends with, the first that applies in the order of R192, and 5 for an illegal
word whatever the registers hold. -/
def Obligations.ErrorCodesInOrder : Prop :=
  ∀ s : State,
    (∃ t, exec .tblinit s = .next t ∧ t.errcode = 0#4) ∧
    (∃ t, exec .crc32 s = .next t ∧ t.errcode = if s.params.srcCap < s.srcLen.toNat then 4#4 else 0#4) ∧
    (∃ t, exec .adler32 s = .next t ∧ t.errcode = if s.params.srcCap < s.srcLen.toNat then 4#4 else 0#4) ∧
    (∃ t, exec .filter s = .next t ∧ t.errcode =
      imageCode s.width.toNat s.height.toNat s.channels.toNat s.srcLen.toNat
        (s.height.toNat * (s.width.toNat * s.channels.toNat + 1)) s.params.srcCap s.params.dstCap) ∧
    (∃ t, exec .store s = .next t ∧ t.errcode =
      packCode s.srcLen.toNat (s.srcLen.toNat + 5 * ((s.srcLen.toNat + 65534) / 65535))
        s.params.srcCap s.params.dstCap) ∧
    (∃ t, exec .zpack s = .next t ∧ t.errcode =
      packCode s.srcLen.toNat (6 + s.srcLen.toNat + 5 * ((s.srcLen.toNat + 65534) / 65535))
        s.params.srcCap s.params.dstCap) ∧
    (∃ t, exec .chunk s = .next t ∧ t.errcode =
      chunkCode s.srcLen.toNat (12 + s.srcLen.toNat) s.params.srcCap s.params.dstCap) ∧
    (∃ t, exec .encode s = .next t ∧ t.errcode =
      imageCode s.width.toNat s.height.toNat s.channels.toNat s.srcLen.toNat
        (63 + s.height.toNat * (s.width.toNat * s.channels.toNat + 1)
          + 5 * ((s.height.toNat * (s.width.toNat * s.channels.toNat + 1) + 65534) / 65535))
        s.params.srcCap s.params.dstCap) ∧
    (∀ v, (∀ i, decode v ≠ .ok i) → ∃ t, issue v s = .next t ∧ t.errcode = 5#4)

/-- R193: what an error changes: ERRCODE alone, and for a DST-writing command also DST_LEN and DST; TBLINIT never ends
in one, and an illegal word changes ERRCODE alone. -/
def Obligations.ErrorChangesOnlyItsRecord : Prop :=
  (∀ (i : Instr) (s t : State), exec i s = .next t → t.errcode ≠ 0#4 →
    (i = .filter ∨ i = .store ∨ i = .zpack ∨ i = .chunk ∨ i = .encode → OutputLost t.errcode s t) ∧
    (i = .crc32 ∨ i = .adler32 → t = { s with errcode := t.errcode }) ∧ i ≠ .tblinit) ∧
  (∀ (s : State) (v : Word), (∀ i, decode v ≠ .ok i) → issue v s = .next { s with errcode := 5#4 })

/-- R195: re-issuing a command that ended in error, with the same operands, gives the same error. -/
def Obligations.ReissuedCommandGivesSameError : Prop :=
  ∀ (i : Instr) (s t u : State), exec i s = .next t → t.errcode ≠ 0#4 → exec i t = .next u → u.errcode = t.errcode

/-! ### The commands -/

/-- R115: its word; TBLINIT completes in every state; the table is built if it was not, and nothing but TBL, its flag and ERRCODE
changes. -/
def Obligations.TblinitBuildsTable : Prop :=
  decode 0x00000001#32 = .ok .tblinit ∧
  ∀ s : State, ∃ t, exec .tblinit s = .next t ∧
    t = { s with errcode := 0#4, tblValid := true, tbl := t.tbl } ∧
    (s.tblValid = true → t.tbl = s.tbl) ∧
    (s.tblValid = false → ∀ n, n < 256 → tblEntry t n = Fn.crcTable (BitVec.ofNat 8 n))

/-- R117: its word; CRC32 completes whenever the operand fits SRC, with the CRC-32 of the source bytes in RESULT and the table
built; otherwise it ends with code 4 and nothing else changes. -/
def Obligations.Crc32ComputesChecksum : Prop :=
  decode 0x00000002#32 = .ok .crc32 ∧
  (∀ s : State, TableOk s → s.srcLen.toNat ≤ s.params.srcCap →
    ∃ t, exec .crc32 s = .next t ∧
      t = { s with
        result := Fn.crc32 (srcBytes s s.srcLen.toNat), errcode := 0#4, tblValid := true, tbl := t.tbl } ∧
      TableBuilt t ∧ (s.tblValid = true → t.tbl = s.tbl)) ∧
  (∀ s : State, s.params.srcCap < s.srcLen.toNat → exec .crc32 s = .next { s with errcode := 4#4 })

/-- R118: its word; ADLER32 completes whenever the operand fits SRC, with the Adler-32 of the source bytes in RESULT; otherwise
it ends with code 4 and nothing else changes. -/
def Obligations.Adler32ComputesChecksum : Prop :=
  decode 0x00000003#32 = .ok .adler32 ∧
  (∀ s : State, s.srcLen.toNat ≤ s.params.srcCap →
    exec .adler32 s = .next { s with result := Fn.adler32 (srcBytes s s.srcLen.toNat), errcode := 0#4 }) ∧
  (∀ s : State, s.params.srcCap < s.srcLen.toNat → exec .adler32 s = .next { s with errcode := 4#4 })

/-- R131: its word; FILTER on an image that passes validation and fits both memories completes with the filtered bitmap in DST;
on any error there is no output. -/
def Obligations.FilterWritesFilteredBitmap : Prop :=
  decode 0x00000004#32 = .ok .filter ∧
  (∀ (s : State) (W H C L F : Nat), s.params.wellFormed = true →
    W = s.width.toNat → H = s.height.toNat → C = s.channels.toNat → L = s.srcLen.toNat →
    F = H * (W * C + 1) → W ≠ 0 → H ≠ 0 → (C = 3 ∨ C = 4) → L = W * H * C →
    L ≤ s.params.srcCap → F ≤ s.params.dstCap →
    ∃ t, exec .filter s = .next t ∧
      t = { s with dst := t.dst, dstLen := t.dstLen, draws := t.draws, errcode := 0#4 } ∧
      t.dstLen.toNat = F ∧ dstBytes t F = Fn.filter (srcBytes s L) W H C) ∧
  (∀ (s : State) (code : BitVec 4), code = imageCode s.width.toNat s.height.toNat s.channels.toNat s.srcLen.toNat
      (s.height.toNat * (s.width.toNat * s.channels.toNat + 1)) s.params.srcCap s.params.dstCap →
    code ≠ 0#4 → ∃ t, exec .filter s = .next t ∧ OutputLost code s t)

/-- R145: its word; STORE on a non-empty operand that fits both memories completes with the stored-block stream in DST; on any
error there is no output. -/
def Obligations.StoreWritesStoredBlocks : Prop :=
  decode 0x00000005#32 = .ok .store ∧
  (∀ (s : State) (L N : Nat), s.params.wellFormed = true → L = s.srcLen.toNat →
    N = L + 5 * ((L + 65534) / 65535) → L ≠ 0 → L ≤ s.params.srcCap → N ≤ s.params.dstCap →
    ∃ t, exec .store s = .next t ∧
      t = { s with dst := t.dst, dstLen := t.dstLen, draws := t.draws, errcode := 0#4 } ∧
      t.dstLen.toNat = N ∧ dstBytes t N = Fn.storedBlocks (srcBytes s L)) ∧
  (∀ (s : State) (code : BitVec 4), code = packCode s.srcLen.toNat
      (s.srcLen.toNat + 5 * ((s.srcLen.toNat + 65534) / 65535)) s.params.srcCap s.params.dstCap →
    code ≠ 0#4 → ∃ t, exec .store s = .next t ∧ OutputLost code s t)

/-- R146: its word; ZPACK on a non-empty operand that fits both memories completes with the zlib stream in DST; on any error
there is no output. -/
def Obligations.ZpackWritesZlibStream : Prop :=
  decode 0x00000006#32 = .ok .zpack ∧
  (∀ (s : State) (L N : Nat), s.params.wellFormed = true → L = s.srcLen.toNat →
    N = 6 + L + 5 * ((L + 65534) / 65535) → L ≠ 0 → L ≤ s.params.srcCap → N ≤ s.params.dstCap →
    ∃ t, exec .zpack s = .next t ∧
      t = { s with dst := t.dst, dstLen := t.dstLen, draws := t.draws, errcode := 0#4 } ∧
      t.dstLen.toNat = N ∧ dstBytes t N = Fn.zlibWrap (srcBytes s L)) ∧
  (∀ (s : State) (code : BitVec 4), code = packCode s.srcLen.toNat
      (6 + s.srcLen.toNat + 5 * ((s.srcLen.toNat + 65534) / 65535)) s.params.srcCap s.params.dstCap →
    code ≠ 0#4 → ∃ t, exec .zpack s = .next t ∧ OutputLost code s t)

/-- R161: its word; CHUNK on an operand that fits both memories completes with the chunk of type `be32(CTYPE)` in DST and the
table built; on any error there is no output. -/
def Obligations.ChunkWritesFramedData : Prop :=
  decode 0x00000007#32 = .ok .chunk ∧
  (∀ (s : State) (L : Nat), TableOk s → s.params.wellFormed = true → L = s.srcLen.toNat →
    L ≤ s.params.srcCap → 12 + L ≤ s.params.dstCap →
    ∃ t, exec .chunk s = .next t ∧
      t = { s with
        dst := t.dst, dstLen := t.dstLen, draws := t.draws, errcode := 0#4, tblValid := true, tbl := t.tbl } ∧
      TableBuilt t ∧ (s.tblValid = true → t.tbl = s.tbl) ∧
      t.dstLen.toNat = 12 + L ∧ dstBytes t (12 + L) = Fn.chunk (be32 s.ctype) (srcBytes s L)) ∧
  (∀ (s : State) (code : BitVec 4), code = chunkCode s.srcLen.toNat (12 + s.srcLen.toNat)
      s.params.srcCap s.params.dstCap →
    code ≠ 0#4 → ∃ t, exec .chunk s = .next t ∧ OutputLost code s t)

/-- R174: its word; ENCODE on an image that passes validation and fits both memories completes with the whole PNG file in DST and
the table built; on any error there is no output. -/
def Obligations.EncodeWritesPngFile : Prop :=
  decode 0x00000008#32 = .ok .encode ∧
  (∀ (s : State) (W H C L F N : Nat), TableOk s → s.params.wellFormed = true →
    W = s.width.toNat → H = s.height.toNat → C = s.channels.toNat → L = s.srcLen.toNat →
    F = H * (W * C + 1) → N = 63 + F + 5 * ((F + 65534) / 65535) →
    W ≠ 0 → H ≠ 0 → (C = 3 ∨ C = 4) → L = W * H * C → L ≤ s.params.srcCap → N ≤ s.params.dstCap →
    ∃ t, exec .encode s = .next t ∧
      t = { s with
        dst := t.dst, dstLen := t.dstLen, draws := t.draws, errcode := 0#4, tblValid := true, tbl := t.tbl } ∧
      TableBuilt t ∧ (s.tblValid = true → t.tbl = s.tbl) ∧
      t.dstLen.toNat = N ∧ dstBytes t N = Fn.encode W H C (srcBytes s L)) ∧
  (∀ (s : State) (code : BitVec 4), code = imageCode s.width.toNat s.height.toNat s.channels.toNat s.srcLen.toNat
      (63 + s.height.toNat * (s.width.toNat * s.channels.toNat + 1)
        + 5 * ((s.height.toNat * (s.width.toNat * s.channels.toNat + 1) + 65534) / 65535))
      s.params.srcCap s.params.dstCap →
    code ≠ 0#4 → ∃ t, exec .encode s = .next t ∧ OutputLost code s t)

/-- R175: what a command leaves is a function of the operands it reads (R82): two states that agree on them, each with
a table that is right if it is valid, end with the same code, the same output and, for the checksum commands, the same
RESULT, whatever their other registers, flags and unspecified bytes. -/
def Obligations.CommandsDependOnOperandsOnly : Prop :=
  ∀ (i : Instr) (s u s' u' : State), TableOk s → TableOk u → SameOperands i s u →
    exec i s = .next s' → exec i u = .next u' →
    s'.errcode = u'.errcode ∧
    (i = .filter ∨ i = .store ∨ i = .zpack ∨ i = .chunk ∨ i = .encode →
      s'.dstLen = u'.dstLen ∧ dstBytes s' s'.dstLen.toNat = dstBytes u' u'.dstLen.toNat) ∧
    (i = .crc32 ∨ i = .adler32 → s'.errcode = 0#4 → s'.result = u'.result)

/-! ### The function layer -/

/-- R112 (d): a step through the table is 8 steps of the bitwise form, so the table is an optimisation only. -/
def Obligations.CrcStepIsEightBitSteps : Prop :=
  ∀ (acc : Word) (b : Byte), Fn.crcStep acc b = Nat.iterate Fn.bitStep 8 (acc ^^^ b.setWidth 32)

/-- R113, R29: the engine's 32-bit sums give the function layer's checksum over naturals, for every byte sequence. -/
def Obligations.AdlerEngineComputesFunction : Prop := ∀ s : List Byte, adlerEngine s = Fn.adler32 s

/-- R114 (a): the closed form of Adler-32, in which no chunk bound appears. -/
def Obligations.AdlerClosedForm : Prop :=
  ∀ s : List Byte,
    Fn.adler32 s = BitVec.ofNat 32 (
      (s.length + (s.zipIdx.map fun p => (s.length - p.2) * p.1.toNat).sum) % 65521 * 65536
        + (1 + (s.map BitVec.toNat).sum) % 65521)

/-- R114 (b): from reduced sums, a chunk of at most 5552 bytes keeps both sums below `2^32`, and one of at most 3800
bytes keeps them at or below 2090626020. -/
def Obligations.AdlerSumsNeverOverflow : Prop :=
  (∀ (chunk : List Byte) (a b : Nat), chunk.length ≤ 5552 → a ≤ 65520 → b ≤ 65520 →
    (chunk.foldl Fn.adlerByte (a, b)).1 < 4294967296 ∧ (chunk.foldl Fn.adlerByte (a, b)).2 < 4294967296) ∧
  (∀ (chunk : List Byte) (a b : Nat), chunk.length ≤ 3800 → a ≤ 65520 → b ≤ 65520 →
    (chunk.foldl Fn.adlerByte (a, b)).1 ≤ 2090626020 ∧ (chunk.foldl Fn.adlerByte (a, b)).2 ≤ 2090626020)

/-- R132 (a): the length of a filtered bitmap and every one of its bytes. -/
def Obligations.FilteredBitmapBytes : Prop :=
  ∀ (p : List Byte) (W H C : Nat), p.length = W * H * C →
    (Fn.filter p W H C).length = H * (W * C + 1) ∧
    ∀ k, k < H * (W * C + 1) →
      (Fn.filter p W H C)[k]? = if k % (W * C + 1) = 0 then some 0#8
        else p[k / (W * C + 1) * (W * C) + k % (W * C + 1) - 1]?

/-- R140: the spans are consecutive and their concatenation is the sequence; all but the last have 65535 bytes, the
last 1 to 65535. -/
def Obligations.SpansPartitionInput : Prop :=
  ∀ (s : List Byte), s ≠ [] →
    (Fn.spans s).flatten = s ∧ (Fn.spans s).length = (s.length + 65534) / 65535 ∧
    (∀ (i : Nat) (span : List Byte), (Fn.spans s)[i]? = some span →
      span = slice s (i * 65535) (min ((i + 1) * 65535) s.length) ∧
      (i + 1 < (Fn.spans s).length → span.length = 65535) ∧
      (i + 1 = (Fn.spans s).length →
        span.length = s.length - ((Fn.spans s).length - 1) * 65535 ∧ 1 ≤ span.length ∧ span.length ≤ 65535))

/-- R144 (a), (b), (c), (d): the length of the stored-block stream, and block `i` at offset `65540 * i`: a header byte
that is 1 in the last block only, LEN the payload's length, NLEN with `LEN + NLEN = 0xFFFF`, and the payload. -/
def Obligations.StoredBlocksLayout : Prop :=
  ∀ (s : List Byte) (K : Nat), s ≠ [] → K = (s.length + 65534) / 65535 →
    (Fn.storedBlocks s).length = s.length + 5 * K ∧
    ∀ i, i < K → ∃ (len nlen : BitVec 16) (payload : List Byte),
      payload = slice s (i * 65535) (min ((i + 1) * 65535) s.length) ∧
      len.toNat = payload.length ∧ len.toNat + nlen.toNat = 0xFFFF ∧
      slice (Fn.storedBlocks s) (i * 65540) (i * 65540 + 5 + payload.length) =
        (if i + 1 = K then 0x01#8 else 0x00#8) :: (le16 len ++ le16 nlen ++ payload)

/-- R91, R144 (a): the zlib container: `78 01` (as a number a multiple of 31), the stored blocks, and the big-endian Adler-32 of the input itself. -/
def Obligations.ZlibContainerLayout : Prop :=
  ∀ (s : List Byte) (K : Nat), s ≠ [] → K = (s.length + 65534) / 65535 →
    (Fn.zlibWrap s).length = 6 + s.length + 5 * K ∧
    slice (Fn.zlibWrap s) 0 2 = [0x78#8, 0x01#8] ∧ 0x7801 % 31 = 0 ∧
    slice (Fn.zlibWrap s) 2 (2 + s.length + 5 * K) = Fn.storedBlocks s ∧
    slice (Fn.zlibWrap s) (2 + s.length + 5 * K) (6 + s.length + 5 * K) = be32 (Fn.adler32 s)

/-- R89: the chunk frame: length of the data only, type, data, CRC-32 of type and data. -/
def Obligations.ChunkFrameLayout : Prop :=
  ∀ (t d : List Byte), t.length = 4 → d.length < 4294967296 →
    (Fn.chunk t d).length = 12 + d.length ∧
    slice (Fn.chunk t d) 0 4 = be32 (BitVec.ofNat 32 d.length) ∧
    slice (Fn.chunk t d) 4 8 = t ∧
    slice (Fn.chunk t d) 8 (8 + d.length) = d ∧
    slice (Fn.chunk t d) (8 + d.length) (12 + d.length) = be32 (Fn.crc32 (t ++ d))

/-- R163 (c): `chunk` is injective in the type and the data. -/
def Obligations.ChunkIsInjective : Prop :=
  ∀ (t d t' d' : List Byte), t.length = 4 → t'.length = 4 → Fn.chunk t d = Fn.chunk t' d' → t = t' ∧ d = d'

/-- R88, R90: the PNG file: every part at its offset, from the signature to the literal IEND chunk, for an IDAT length
below `2^32`, where `chunk` is defined (R160, U43). -/
def Obligations.PngFileLayout : Prop :=
  ∀ (W H C F K Z : Nat) (p file : List Byte), 1 ≤ W → 1 ≤ H → W < 4294967296 → H < 4294967296 → (C = 3 ∨ C = 4) →
    p.length = W * H * C → F = H * (W * C + 1) → K = (F + 65534) / 65535 → Z = 6 + F + 5 * K →
    Z < 4294967296 → file = Fn.encode W H C p →
    file.length = 57 + Z ∧
    slice file 0 8 = [0x89#8, 0x50#8, 0x4E#8, 0x47#8, 0x0D#8, 0x0A#8, 0x1A#8, 0x0A#8] ∧
    slice file 8 16 = [0x00#8, 0x00#8, 0x00#8, 0x0D#8, 0x49#8, 0x48#8, 0x44#8, 0x52#8] ∧
    slice file 16 20 = be32 (BitVec.ofNat 32 W) ∧ slice file 20 24 = be32 (BitVec.ofNat 32 H) ∧
    slice file 24 29 = [0x08#8, if C = 4 then 0x06#8 else 0x02#8, 0x00#8, 0x00#8, 0x00#8] ∧
    slice file 29 33 = be32 (Fn.crc32 (slice file 12 29)) ∧
    slice file 33 37 = be32 (BitVec.ofNat 32 Z) ∧
    slice file 37 41 = [0x49#8, 0x44#8, 0x41#8, 0x54#8] ∧
    slice file 41 (41 + Z) = Fn.zlibWrap (Fn.filter p W H C) ∧
    slice file (41 + Z) (45 + Z) = be32 (Fn.crc32 (slice file 37 (41 + Z))) ∧
    slice file (45 + Z) (57 + Z) =
      [0x00#8, 0x00#8, 0x00#8, 0x00#8, 0x49#8, 0x45#8, 0x4E#8, 0x44#8, 0xAE#8, 0x42#8, 0x60#8, 0x82#8]

/-- R132 (b), R144 (f), R176 (b): the round trip the spec can state without a decoder: the IDAT data without its 2
header bytes, block headers and 4 trailer bytes, and then without the filter-type bytes, is the pixel buffer. -/
def Obligations.PngFileRecoversPixels : Prop :=
  ∀ (W H C F K : Nat) (p : List Byte), 1 ≤ W → 1 ≤ H → (C = 3 ∨ C = 4) → p.length = W * H * C →
    F = H * (W * C + 1) → K = (F + 65534) / 65535 →
    stripBlocks K (slice (Fn.encode W H C p) 43 (43 + F + 5 * K)) = Fn.filter p W H C ∧
    stripFilter H (W * C) (stripBlocks K (slice (Fn.encode W H C p) 43 (43 + F + 5 * K))) = p
end

