-- ==== Sys2Proof/Laws/Bytes.lean ====
section
/-! SUPPORT. Lengths and shapes of byte sequences: slices, pieces, and the output of each function of the function
layer (the lengths R130, R144 (a), R160, R173 give). -/

namespace Sys2Proof

@[simp] theorem length_slice (s : List Byte) (i j : Nat) : (slice s i j).length = min (j - i) (s.length - i) := by
  simp [slice]

@[simp] theorem length_be32 (v : Word) : (be32 v).length = 4 := rfl

@[simp] theorem length_be32Nat (n : Nat) : (be32Nat n).length = 4 := rfl

@[simp] theorem length_le16 (v : BitVec 16) : (le16 v).length = 2 := rfl

/-- The slice that ends where a first part of the given length ends is in that part. -/
theorem slice_append_left (s t : List Byte) (i j : Nat) (h : j ≤ s.length) : slice (s ++ t) i j = slice s i j := by
  unfold slice
  by_cases hi : i ≤ s.length
  · rw [List.drop_append_of_le_length hi, List.take_append_of_le_length (by simp; omega)]
  · have : j - i = 0 := by omega
    simp [this]

/-- The slice that starts after a first part of the given length is in the second part. -/
theorem slice_append_right (s t : List Byte) (i j : Nat) (h : s.length ≤ i) :
    slice (s ++ t) i j = slice t (i - s.length) (j - s.length) := by
  unfold slice
  rw [List.drop_append, List.drop_eq_nil_of_le h, List.nil_append]
  congr 1
  omega

/-- The whole of a sequence as a slice. -/
theorem slice_all (s : List Byte) (j : Nat) (h : s.length ≤ j) : slice s 0 j = s := by
  simp [slice, List.take_of_length_le h]

/-- Two adjacent slices joined. -/
theorem slice_append_slice (s : List Byte) (i j k : Nat) (hij : i ≤ j) (hjk : j ≤ k) :
    slice s i j ++ slice s j k = slice s i k := by
  unfold slice
  have h1 : k - i = (j - i) + (k - j) := by omega
  have h2 : s.drop j = (s.drop i).drop (j - i) := by rw [List.drop_drop]; congr 1; omega
  rw [h1, List.take_add, h2]

theorem ceilDiv_eq (n k : Nat) : ceilDiv n k = (n + (k - 1)) / k := by
  unfold ceilDiv
  rcases Nat.eq_zero_or_pos k with rfl | hk
  · simp
  · congr 1; omega

@[simp] theorem length_pieces (k : Nat) (s : List Byte) : (pieces k s).length = ceilDiv s.length k := by
  simp [pieces]

/-- The first `m` consecutive slices of width `k` join to the slice up to their end. -/
theorem flatten_slices (k : Nat) (s : List Byte) (m : Nat) :
    (((List.range m).map fun i => slice s (i * k) (min ((i + 1) * k) s.length)).flatten)
      = slice s 0 (min (m * k) s.length) := by
  induction m with
  | zero => simp [slice]
  | succ m ih =>
    rw [List.range_succ, List.map_append, List.flatten_append, ih]
    simp only [List.map_cons, List.map_nil, List.flatten_cons, List.flatten_nil, List.append_nil]
    by_cases h : m * k ≤ s.length
    · rw [Nat.min_eq_left h, slice_append_slice _ _ _ _ (Nat.zero_le _)]
      rw [Nat.add_one_mul]; omega
    · have hlt : s.length < m * k := by omega
      have h2 : s.length ≤ (m + 1) * k := by rw [Nat.add_one_mul]; omega
      rw [Nat.min_eq_right hlt.le, Nat.min_eq_right h2]
      have : slice s (m * k) s.length = [] := by
        apply List.eq_nil_of_length_eq_zero; simp; omega
      rw [this, List.append_nil]

/-- `ceil(n / k)` pieces of width `k` cover `n`. -/
theorem le_ceilDiv_mul (n k : Nat) (hk : 0 < k) : n ≤ ceilDiv n k * k := by
  unfold ceilDiv
  have := Nat.lt_div_mul_add (a := n + k - 1) hk
  omega

/-- The pieces of a sequence join to the sequence. -/
theorem flatten_pieces (k : Nat) (s : List Byte) (hk : 0 < k) : (pieces k s).flatten = s := by
  unfold pieces
  rw [flatten_slices, Nat.min_eq_right (le_ceilDiv_mul _ _ hk), slice_all _ _ (le_refl _)]

/-- A piece is the slice its index names. -/
theorem getElem?_pieces (k : Nat) (s : List Byte) (i : Nat) (h : i < ceilDiv s.length k) :
    (pieces k s)[i]? = some (slice s (i * k) (min ((i + 1) * k) s.length)) := by
  simp [pieces, h]

namespace Fn

/-- R130: the length of a filtered bitmap. -/
theorem length_filter (p : List Byte) (W H C : Nat) (h : p.length = W * H * C) :
    (filter p W H C).length = filteredLength W H C := by
  have hrow : ∀ y ∈ List.range H,
      (0x00#8 :: slice p (y * (W * C)) ((y + 1) * (W * C))).length = W * C + 1 := by
    intro y hy
    have hy : y + 1 ≤ H := List.mem_range.mp hy
    have h1 : (y + 1) * (W * C) ≤ p.length := by
      calc (y + 1) * (W * C) ≤ H * (W * C) := Nat.mul_le_mul_right _ hy
        _ = p.length := by rw [h]; ring
    have h2 : (y + 1) * (W * C) = y * (W * C) + W * C := Nat.add_one_mul _ _
    simp; omega
  unfold filter filteredLength
  rw [List.length_flatMap, List.map_congr_left hrow]
  simp

/-- R141: the length of a stored block. -/
@[simp] theorem length_block (final : Bool) (span : List Byte) : (block final span).length = 5 + span.length := by
  simp [block]; omega

/-- R144 (a): the length of the stored-block stream. -/
theorem length_storedBlocks (s : List Byte) : (storedBlocks s).length = storedLength s.length := by
  have h1 : ∀ (l : List (List Byte)) (n k : Nat),
      ((l.zipIdx k).flatMap fun p => block (p.2 + 1 == n) p.1).length = l.flatten.length + 5 * l.length := by
    intro l n
    induction l with
    | nil => simp
    | cons x l ih =>
      intro k
      rw [List.zipIdx_cons, List.flatMap_cons, List.length_append, ih, length_block, List.flatten_cons,
        List.length_append, List.length_cons]
      show 5 + x.length + _ = _
      omega
  unfold storedBlocks storedLength spans
  rw [h1, flatten_pieces _ _ (by decide), length_pieces]

/-- R144 (a): the length of the zlib stream. -/
@[simp] theorem length_zlibWrapWith (adlerFn : List Byte → Word) (s : List Byte) :
    (zlibWrapWith adlerFn s).length = zlibLength s.length := by
  simp [zlibWrapWith, length_storedBlocks, zlibLength]; omega

/-- R160: the length of a chunk. -/
theorem length_chunkWith (crcFn : List Byte → Word) (t d : List Byte) (h : t.length = 4) :
    (chunkWith crcFn t d).length = chunkLength d.length := by
  simp [chunkWith, h, chunkLength]; omega

@[simp] theorem length_ihdrPayload (W H C : Nat) : (ihdrPayload W H C).length = 13 := rfl

/-- R173: the length of a PNG file. -/
theorem length_encodeWith (crcFn adlerFn : List Byte → Word) (W H C : Nat) (p : List Byte)
    (h : p.length = W * H * C) : (encodeWith crcFn adlerFn W H C p).length = encodedLength W H C := by
  have hI : typeIHDR.length = 4 := rfl
  have hD : typeIDAT.length = 4 := rfl
  have hE : typeIEND.length = 4 := rfl
  simp [encodeWith, length_chunkWith, hI, hD, hE, length_filter p W H C h, chunkLength, zlibLength, encodedLength,
    pngSig]
  omega

end Fn

end Sys2Proof
end

