-- ==== Sys2Proof/Laws/State.lean ====
section
/-! SUPPORT. What each update of State leaves in each field: one lemma per field per update, so that no later proof
unfolds a record update. Each is `rfl`, written `(rfl)` so that simp applies it as a rewriting rule and a proof leaves the
kernel no record to unfold. -/

namespace Sys2Proof.Machine

/-! ### `setErrcode` -/

@[simp] theorem setErrcode_params (c : BitVec 4) (s : State) : (setErrcode c s).params = s.params := (rfl)
@[simp] theorem setErrcode_width (c : BitVec 4) (s : State) : (setErrcode c s).width = s.width := (rfl)
@[simp] theorem setErrcode_height (c : BitVec 4) (s : State) : (setErrcode c s).height = s.height := (rfl)
@[simp] theorem setErrcode_channels (c : BitVec 4) (s : State) : (setErrcode c s).channels = s.channels := (rfl)
@[simp] theorem setErrcode_srcLen (c : BitVec 4) (s : State) : (setErrcode c s).srcLen = s.srcLen := (rfl)
@[simp] theorem setErrcode_ctype (c : BitVec 4) (s : State) : (setErrcode c s).ctype = s.ctype := (rfl)
@[simp] theorem setErrcode_result (c : BitVec 4) (s : State) : (setErrcode c s).result = s.result := (rfl)
@[simp] theorem setErrcode_dstLen (c : BitVec 4) (s : State) : (setErrcode c s).dstLen = s.dstLen := (rfl)
@[simp] theorem setErrcode_errcode (c : BitVec 4) (s : State) : (setErrcode c s).errcode = c := (rfl)
@[simp] theorem setErrcode_tblValid (c : BitVec 4) (s : State) : (setErrcode c s).tblValid = s.tblValid := (rfl)
@[simp] theorem setErrcode_tbl (c : BitVec 4) (s : State) : (setErrcode c s).tbl = s.tbl := (rfl)
@[simp] theorem setErrcode_src (c : BitVec 4) (s : State) : (setErrcode c s).src = s.src := (rfl)
@[simp] theorem setErrcode_dst (c : BitVec 4) (s : State) : (setErrcode c s).dst = s.dst := (rfl)
@[simp] theorem setErrcode_draws (c : BitVec 4) (s : State) : (setErrcode c s).draws = s.draws := (rfl)
@[simp] theorem setErrcode_pending (c : BitVec 4) (s : State) : (setErrcode c s).pending = s.pending := (rfl)
@[simp] theorem setErrcode_response (c : BitVec 4) (s : State) : (setErrcode c s).response = s.response := (rfl)

/-! ### `complete` -/

@[simp] theorem complete_params (s : State) : (complete s).params = s.params := (rfl)
@[simp] theorem complete_width (s : State) : (complete s).width = s.width := (rfl)
@[simp] theorem complete_height (s : State) : (complete s).height = s.height := (rfl)
@[simp] theorem complete_channels (s : State) : (complete s).channels = s.channels := (rfl)
@[simp] theorem complete_srcLen (s : State) : (complete s).srcLen = s.srcLen := (rfl)
@[simp] theorem complete_ctype (s : State) : (complete s).ctype = s.ctype := (rfl)
@[simp] theorem complete_result (s : State) : (complete s).result = s.result := (rfl)
@[simp] theorem complete_dstLen (s : State) : (complete s).dstLen = s.dstLen := (rfl)
@[simp] theorem complete_errcode (s : State) : (complete s).errcode = 0#4 := (rfl)
@[simp] theorem complete_tblValid (s : State) : (complete s).tblValid = s.tblValid := (rfl)
@[simp] theorem complete_tbl (s : State) : (complete s).tbl = s.tbl := (rfl)
@[simp] theorem complete_src (s : State) : (complete s).src = s.src := (rfl)
@[simp] theorem complete_dst (s : State) : (complete s).dst = s.dst := (rfl)
@[simp] theorem complete_draws (s : State) : (complete s).draws = s.draws := (rfl)
@[simp] theorem complete_pending (s : State) : (complete s).pending = s.pending := (rfl)
@[simp] theorem complete_response (s : State) : (complete s).response = s.response := (rfl)

/-! ### `setResult` -/

@[simp] theorem setResult_params (v : Word) (s : State) : (setResult v s).params = s.params := (rfl)
@[simp] theorem setResult_width (v : Word) (s : State) : (setResult v s).width = s.width := (rfl)
@[simp] theorem setResult_height (v : Word) (s : State) : (setResult v s).height = s.height := (rfl)
@[simp] theorem setResult_channels (v : Word) (s : State) : (setResult v s).channels = s.channels := (rfl)
@[simp] theorem setResult_srcLen (v : Word) (s : State) : (setResult v s).srcLen = s.srcLen := (rfl)
@[simp] theorem setResult_ctype (v : Word) (s : State) : (setResult v s).ctype = s.ctype := (rfl)
@[simp] theorem setResult_result (v : Word) (s : State) : (setResult v s).result = v := (rfl)
@[simp] theorem setResult_dstLen (v : Word) (s : State) : (setResult v s).dstLen = s.dstLen := (rfl)
@[simp] theorem setResult_errcode (v : Word) (s : State) : (setResult v s).errcode = s.errcode := (rfl)
@[simp] theorem setResult_tblValid (v : Word) (s : State) : (setResult v s).tblValid = s.tblValid := (rfl)
@[simp] theorem setResult_tbl (v : Word) (s : State) : (setResult v s).tbl = s.tbl := (rfl)
@[simp] theorem setResult_src (v : Word) (s : State) : (setResult v s).src = s.src := (rfl)
@[simp] theorem setResult_dst (v : Word) (s : State) : (setResult v s).dst = s.dst := (rfl)
@[simp] theorem setResult_draws (v : Word) (s : State) : (setResult v s).draws = s.draws := (rfl)
@[simp] theorem setResult_pending (v : Word) (s : State) : (setResult v s).pending = s.pending := (rfl)
@[simp] theorem setResult_response (v : Word) (s : State) : (setResult v s).response = s.response := (rfl)

/-! ### `putOutput` -/

@[simp] theorem putOutput_params (n : Nat) (out : List Byte) (s : State) : (putOutput n out s).params = s.params :=
  (rfl)
@[simp] theorem putOutput_width (n : Nat) (out : List Byte) (s : State) : (putOutput n out s).width = s.width := (rfl)
@[simp] theorem putOutput_height (n : Nat) (out : List Byte) (s : State) : (putOutput n out s).height = s.height :=
  (rfl)
@[simp] theorem putOutput_channels (n : Nat) (out : List Byte) (s : State) : (putOutput n out s).channels = s.channels :=
  (rfl)
@[simp] theorem putOutput_srcLen (n : Nat) (out : List Byte) (s : State) : (putOutput n out s).srcLen = s.srcLen :=
  (rfl)
@[simp] theorem putOutput_ctype (n : Nat) (out : List Byte) (s : State) : (putOutput n out s).ctype = s.ctype := (rfl)
@[simp] theorem putOutput_result (n : Nat) (out : List Byte) (s : State) : (putOutput n out s).result = s.result :=
  (rfl)
@[simp] theorem putOutput_dstLen (n : Nat) (out : List Byte) (s : State) : (putOutput n out s).dstLen = BitVec.ofNat 32 n :=
  (rfl)
@[simp] theorem putOutput_errcode (n : Nat) (out : List Byte) (s : State) : (putOutput n out s).errcode = s.errcode :=
  (rfl)
@[simp] theorem putOutput_tblValid (n : Nat) (out : List Byte) (s : State) : (putOutput n out s).tblValid = s.tblValid :=
  (rfl)
@[simp] theorem putOutput_tbl (n : Nat) (out : List Byte) (s : State) : (putOutput n out s).tbl = s.tbl := (rfl)
@[simp] theorem putOutput_src (n : Nat) (out : List Byte) (s : State) : (putOutput n out s).src = s.src := (rfl)
@[simp] theorem putOutput_dst (n : Nat) (out : List Byte) (s : State) : (putOutput n out s).dst = { cells := cellsFrom 0 out, draw := s.draws } :=
  (rfl)
@[simp] theorem putOutput_draws (n : Nat) (out : List Byte) (s : State) : (putOutput n out s).draws = s.draws + 1 :=
  (rfl)
@[simp] theorem putOutput_pending (n : Nat) (out : List Byte) (s : State) : (putOutput n out s).pending = s.pending :=
  (rfl)
@[simp] theorem putOutput_response (n : Nat) (out : List Byte) (s : State) : (putOutput n out s).response = s.response :=
  (rfl)

/-! ### `dropOutput` -/

@[simp] theorem dropOutput_params (s : State) : (dropOutput s).params = s.params := (rfl)
@[simp] theorem dropOutput_width (s : State) : (dropOutput s).width = s.width := (rfl)
@[simp] theorem dropOutput_height (s : State) : (dropOutput s).height = s.height := (rfl)
@[simp] theorem dropOutput_channels (s : State) : (dropOutput s).channels = s.channels := (rfl)
@[simp] theorem dropOutput_srcLen (s : State) : (dropOutput s).srcLen = s.srcLen := (rfl)
@[simp] theorem dropOutput_ctype (s : State) : (dropOutput s).ctype = s.ctype := (rfl)
@[simp] theorem dropOutput_result (s : State) : (dropOutput s).result = s.result := (rfl)
@[simp] theorem dropOutput_dstLen (s : State) : (dropOutput s).dstLen = 0#32 := (rfl)
@[simp] theorem dropOutput_errcode (s : State) : (dropOutput s).errcode = s.errcode := (rfl)
@[simp] theorem dropOutput_tblValid (s : State) : (dropOutput s).tblValid = s.tblValid := (rfl)
@[simp] theorem dropOutput_tbl (s : State) : (dropOutput s).tbl = s.tbl := (rfl)
@[simp] theorem dropOutput_src (s : State) : (dropOutput s).src = s.src := (rfl)
@[simp] theorem dropOutput_dst (s : State) : (dropOutput s).dst = { cells := [], draw := s.draws } := (rfl)
@[simp] theorem dropOutput_draws (s : State) : (dropOutput s).draws = s.draws + 1 := (rfl)
@[simp] theorem dropOutput_pending (s : State) : (dropOutput s).pending = s.pending := (rfl)
@[simp] theorem dropOutput_response (s : State) : (dropOutput s).response = s.response := (rfl)

/-! ### `buildTable` -/

@[simp] theorem buildTable_params (s : State) : (buildTable s).params = s.params := (rfl)
@[simp] theorem buildTable_width (s : State) : (buildTable s).width = s.width := (rfl)
@[simp] theorem buildTable_height (s : State) : (buildTable s).height = s.height := (rfl)
@[simp] theorem buildTable_channels (s : State) : (buildTable s).channels = s.channels := (rfl)
@[simp] theorem buildTable_srcLen (s : State) : (buildTable s).srcLen = s.srcLen := (rfl)
@[simp] theorem buildTable_ctype (s : State) : (buildTable s).ctype = s.ctype := (rfl)
@[simp] theorem buildTable_result (s : State) : (buildTable s).result = s.result := (rfl)
@[simp] theorem buildTable_dstLen (s : State) : (buildTable s).dstLen = s.dstLen := (rfl)
@[simp] theorem buildTable_errcode (s : State) : (buildTable s).errcode = s.errcode := (rfl)
@[simp] theorem buildTable_tblValid (s : State) : (buildTable s).tblValid = true := (rfl)
@[simp] theorem buildTable_tbl (s : State) : (buildTable s).tbl = { cells := builtCells, draw := s.tbl.draw } := (rfl)
@[simp] theorem buildTable_src (s : State) : (buildTable s).src = s.src := (rfl)
@[simp] theorem buildTable_dst (s : State) : (buildTable s).dst = s.dst := (rfl)
@[simp] theorem buildTable_draws (s : State) : (buildTable s).draws = s.draws := (rfl)
@[simp] theorem buildTable_pending (s : State) : (buildTable s).pending = s.pending := (rfl)
@[simp] theorem buildTable_response (s : State) : (buildTable s).response = s.response := (rfl)

/-! ### `respond` -/

@[simp] theorem respond_params (v : Word) (s : State) : (respond v s).params = s.params := (rfl)
@[simp] theorem respond_width (v : Word) (s : State) : (respond v s).width = s.width := (rfl)
@[simp] theorem respond_height (v : Word) (s : State) : (respond v s).height = s.height := (rfl)
@[simp] theorem respond_channels (v : Word) (s : State) : (respond v s).channels = s.channels := (rfl)
@[simp] theorem respond_srcLen (v : Word) (s : State) : (respond v s).srcLen = s.srcLen := (rfl)
@[simp] theorem respond_ctype (v : Word) (s : State) : (respond v s).ctype = s.ctype := (rfl)
@[simp] theorem respond_result (v : Word) (s : State) : (respond v s).result = s.result := (rfl)
@[simp] theorem respond_dstLen (v : Word) (s : State) : (respond v s).dstLen = s.dstLen := (rfl)
@[simp] theorem respond_errcode (v : Word) (s : State) : (respond v s).errcode = s.errcode := (rfl)
@[simp] theorem respond_tblValid (v : Word) (s : State) : (respond v s).tblValid = s.tblValid := (rfl)
@[simp] theorem respond_tbl (v : Word) (s : State) : (respond v s).tbl = s.tbl := (rfl)
@[simp] theorem respond_src (v : Word) (s : State) : (respond v s).src = s.src := (rfl)
@[simp] theorem respond_dst (v : Word) (s : State) : (respond v s).dst = s.dst := (rfl)
@[simp] theorem respond_draws (v : Word) (s : State) : (respond v s).draws = s.draws := (rfl)
@[simp] theorem respond_pending (v : Word) (s : State) : (respond v s).pending = s.pending := (rfl)
@[simp] theorem respond_response (v : Word) (s : State) : (respond v s).response = some v := (rfl)

/-! ### `resetBlock` -/

@[simp] theorem resetBlock_params (s : State) : (resetBlock s).params = s.params := (rfl)
@[simp] theorem resetBlock_width (s : State) : (resetBlock s).width = 0#32 := (rfl)
@[simp] theorem resetBlock_height (s : State) : (resetBlock s).height = 0#32 := (rfl)
@[simp] theorem resetBlock_channels (s : State) : (resetBlock s).channels = 0#32 := (rfl)
@[simp] theorem resetBlock_srcLen (s : State) : (resetBlock s).srcLen = 0#32 := (rfl)
@[simp] theorem resetBlock_ctype (s : State) : (resetBlock s).ctype = 0#32 := (rfl)
@[simp] theorem resetBlock_result (s : State) : (resetBlock s).result = 0#32 := (rfl)
@[simp] theorem resetBlock_dstLen (s : State) : (resetBlock s).dstLen = 0#32 := (rfl)
@[simp] theorem resetBlock_errcode (s : State) : (resetBlock s).errcode = 0#4 := (rfl)
@[simp] theorem resetBlock_tblValid (s : State) : (resetBlock s).tblValid = false := (rfl)
@[simp] theorem resetBlock_tbl (s : State) : (resetBlock s).tbl = { cells := [], draw := s.draws } := (rfl)
@[simp] theorem resetBlock_src (s : State) : (resetBlock s).src = { cells := [], draw := s.draws } := (rfl)
@[simp] theorem resetBlock_dst (s : State) : (resetBlock s).dst = { cells := [], draw := s.draws } := (rfl)
@[simp] theorem resetBlock_draws (s : State) : (resetBlock s).draws = s.draws + 1 := (rfl)
@[simp] theorem resetBlock_pending (s : State) : (resetBlock s).pending = s.pending := (rfl)
@[simp] theorem resetBlock_response (s : State) : (resetBlock s).response = s.response := (rfl)

/-! ### `ensureTable` -/

@[simp] theorem ensureTable_params (s : State) : (ensureTable s).params = s.params :=
  by unfold ensureTable; split <;> simp_all
@[simp] theorem ensureTable_width (s : State) : (ensureTable s).width = s.width :=
  by unfold ensureTable; split <;> simp_all
@[simp] theorem ensureTable_height (s : State) : (ensureTable s).height = s.height :=
  by unfold ensureTable; split <;> simp_all
@[simp] theorem ensureTable_channels (s : State) : (ensureTable s).channels = s.channels :=
  by unfold ensureTable; split <;> simp_all
@[simp] theorem ensureTable_srcLen (s : State) : (ensureTable s).srcLen = s.srcLen :=
  by unfold ensureTable; split <;> simp_all
@[simp] theorem ensureTable_ctype (s : State) : (ensureTable s).ctype = s.ctype :=
  by unfold ensureTable; split <;> simp_all
@[simp] theorem ensureTable_result (s : State) : (ensureTable s).result = s.result :=
  by unfold ensureTable; split <;> simp_all
@[simp] theorem ensureTable_dstLen (s : State) : (ensureTable s).dstLen = s.dstLen :=
  by unfold ensureTable; split <;> simp_all
@[simp] theorem ensureTable_errcode (s : State) : (ensureTable s).errcode = s.errcode :=
  by unfold ensureTable; split <;> simp_all
@[simp] theorem ensureTable_tblValid (s : State) : (ensureTable s).tblValid = true :=
  by unfold ensureTable; split <;> simp_all
@[simp] theorem ensureTable_tbl (s : State) : (ensureTable s).tbl = if s.tblValid then s.tbl else { cells := builtCells, draw := s.tbl.draw } :=
  by unfold ensureTable; split <;> simp_all
@[simp] theorem ensureTable_src (s : State) : (ensureTable s).src = s.src := by unfold ensureTable; split <;> simp_all
@[simp] theorem ensureTable_dst (s : State) : (ensureTable s).dst = s.dst := by unfold ensureTable; split <;> simp_all
@[simp] theorem ensureTable_draws (s : State) : (ensureTable s).draws = s.draws :=
  by unfold ensureTable; split <;> simp_all
@[simp] theorem ensureTable_pending (s : State) : (ensureTable s).pending = s.pending :=
  by unfold ensureTable; split <;> simp_all
@[simp] theorem ensureTable_response (s : State) : (ensureTable s).response = s.response :=
  by unfold ensureTable; split <;> simp_all

/-! ### `writeSrc` -/

@[simp] theorem writeSrc_params (a : Nat) (b : Byte) (s : State) : (writeSrc a b s).params = s.params :=
  by unfold writeSrc; split <;> rfl
@[simp] theorem writeSrc_width (a : Nat) (b : Byte) (s : State) : (writeSrc a b s).width = s.width :=
  by unfold writeSrc; split <;> rfl
@[simp] theorem writeSrc_height (a : Nat) (b : Byte) (s : State) : (writeSrc a b s).height = s.height :=
  by unfold writeSrc; split <;> rfl
@[simp] theorem writeSrc_channels (a : Nat) (b : Byte) (s : State) : (writeSrc a b s).channels = s.channels :=
  by unfold writeSrc; split <;> rfl
@[simp] theorem writeSrc_srcLen (a : Nat) (b : Byte) (s : State) : (writeSrc a b s).srcLen = s.srcLen :=
  by unfold writeSrc; split <;> rfl
@[simp] theorem writeSrc_ctype (a : Nat) (b : Byte) (s : State) : (writeSrc a b s).ctype = s.ctype :=
  by unfold writeSrc; split <;> rfl
@[simp] theorem writeSrc_result (a : Nat) (b : Byte) (s : State) : (writeSrc a b s).result = s.result :=
  by unfold writeSrc; split <;> rfl
@[simp] theorem writeSrc_dstLen (a : Nat) (b : Byte) (s : State) : (writeSrc a b s).dstLen = s.dstLen :=
  by unfold writeSrc; split <;> rfl
@[simp] theorem writeSrc_errcode (a : Nat) (b : Byte) (s : State) : (writeSrc a b s).errcode = s.errcode :=
  by unfold writeSrc; split <;> rfl
@[simp] theorem writeSrc_tblValid (a : Nat) (b : Byte) (s : State) : (writeSrc a b s).tblValid = s.tblValid :=
  by unfold writeSrc; split <;> rfl
@[simp] theorem writeSrc_tbl (a : Nat) (b : Byte) (s : State) : (writeSrc a b s).tbl = s.tbl :=
  by unfold writeSrc; split <;> rfl
@[simp] theorem writeSrc_src (a : Nat) (b : Byte) (s : State) : (writeSrc a b s).src = if a < s.params.srcCap then { cells := writeCell a b s.src.cells, draw := s.src.draw } else s.src :=
  by unfold writeSrc; split <;> rfl
@[simp] theorem writeSrc_dst (a : Nat) (b : Byte) (s : State) : (writeSrc a b s).dst = s.dst :=
  by unfold writeSrc; split <;> rfl
@[simp] theorem writeSrc_draws (a : Nat) (b : Byte) (s : State) : (writeSrc a b s).draws = s.draws :=
  by unfold writeSrc; split <;> rfl
@[simp] theorem writeSrc_pending (a : Nat) (b : Byte) (s : State) : (writeSrc a b s).pending = s.pending :=
  by unfold writeSrc; split <;> rfl
@[simp] theorem writeSrc_response (a : Nat) (b : Byte) (s : State) : (writeSrc a b s).response = s.response :=
  by unfold writeSrc; split <;> rfl

/-! ### `raiseError` -/

@[simp] theorem raiseError_params (command : Option Instr) (e : ErrorKind) (s : State) : (raiseError command e s).params = s.params :=
  by unfold raiseError; split <;> rfl
@[simp] theorem raiseError_width (command : Option Instr) (e : ErrorKind) (s : State) : (raiseError command e s).width = s.width :=
  by unfold raiseError; split <;> rfl
@[simp] theorem raiseError_height (command : Option Instr) (e : ErrorKind) (s : State) : (raiseError command e s).height = s.height :=
  by unfold raiseError; split <;> rfl
@[simp] theorem raiseError_channels (command : Option Instr) (e : ErrorKind) (s : State) : (raiseError command e s).channels = s.channels :=
  by unfold raiseError; split <;> rfl
@[simp] theorem raiseError_srcLen (command : Option Instr) (e : ErrorKind) (s : State) : (raiseError command e s).srcLen = s.srcLen :=
  by unfold raiseError; split <;> rfl
@[simp] theorem raiseError_ctype (command : Option Instr) (e : ErrorKind) (s : State) : (raiseError command e s).ctype = s.ctype :=
  by unfold raiseError; split <;> rfl
@[simp] theorem raiseError_result (command : Option Instr) (e : ErrorKind) (s : State) : (raiseError command e s).result = s.result :=
  by unfold raiseError; split <;> rfl
@[simp] theorem raiseError_dstLen (command : Option Instr) (e : ErrorKind) (s : State) : (raiseError command e s).dstLen = if command.any writesDst then 0#32 else s.dstLen :=
  by unfold raiseError; split <;> rfl
@[simp] theorem raiseError_errcode (command : Option Instr) (e : ErrorKind) (s : State) : (raiseError command e s).errcode = e.code :=
  by unfold raiseError; split <;> rfl
@[simp] theorem raiseError_tblValid (command : Option Instr) (e : ErrorKind) (s : State) : (raiseError command e s).tblValid = s.tblValid :=
  by unfold raiseError; split <;> rfl
@[simp] theorem raiseError_tbl (command : Option Instr) (e : ErrorKind) (s : State) : (raiseError command e s).tbl = s.tbl :=
  by unfold raiseError; split <;> rfl
@[simp] theorem raiseError_src (command : Option Instr) (e : ErrorKind) (s : State) : (raiseError command e s).src = s.src :=
  by unfold raiseError; split <;> rfl
@[simp] theorem raiseError_dst (command : Option Instr) (e : ErrorKind) (s : State) : (raiseError command e s).dst = if command.any writesDst then { cells := [], draw := s.draws } else s.dst :=
  by unfold raiseError; split <;> rfl
@[simp] theorem raiseError_draws (command : Option Instr) (e : ErrorKind) (s : State) : (raiseError command e s).draws = if command.any writesDst then s.draws + 1 else s.draws :=
  by unfold raiseError; split <;> rfl
@[simp] theorem raiseError_pending (command : Option Instr) (e : ErrorKind) (s : State) : (raiseError command e s).pending = s.pending :=
  by unfold raiseError; split <;> rfl
@[simp] theorem raiseError_response (command : Option Instr) (e : ErrorKind) (s : State) : (raiseError command e s).response = s.response :=
  by unfold raiseError; split <;> rfl

/-- Two states whose fields agree are one state. -/
theorem State.ext_fields {s t : State}
    (h0 : s.params = t.params) (h1 : s.width = t.width) (h2 : s.height = t.height) (h3 : s.channels = t.channels)
    (h4 : s.srcLen = t.srcLen) (h5 : s.ctype = t.ctype) (h6 : s.result = t.result) (h7 : s.dstLen = t.dstLen)
    (h8 : s.errcode = t.errcode) (h9 : s.tblValid = t.tblValid) (h10 : s.tbl = t.tbl) (h11 : s.src = t.src)
    (h12 : s.dst = t.dst) (h13 : s.draws = t.draws) (h14 : s.pending = t.pending) (h15 : s.response = t.response) : s = t := by
  cases s; cases t; simp_all

end Sys2Proof.Machine
end

