-- ==== Sys2Proof/Laws/Cells.lean ====
section
/-! SUPPORT. The laws of the sparse memories: read after write, the canonical form, and the cells of a sequence. -/

namespace Sys2Proof.Machine

variable {α : Type}

@[simp] theorem readCell_nil (a : Nat) : readCell ([] : List (Nat × α)) a = none := rfl

@[simp] theorem readCell_cons (k : Nat) (v : α) (rest : List (Nat × α)) (a : Nat) :
    readCell ((k, v) :: rest) a = if k = a then some v else readCell rest a := rfl

/-- Reading the offset just written gives the value written. -/
theorem readCell_writeCell_same (a : Nat) (v : α) (cells : List (Nat × α)) :
    readCell (writeCell a v cells) a = some v := by
  induction cells with
  | nil => simp [writeCell]
  | cons c rest ih =>
    obtain ⟨k, w⟩ := c
    simp only [writeCell]
    split
    · simp
    · split
      · simp
      · next h => simp [Ne.symm h, ih]

/-- A write leaves every other offset alone. -/
theorem readCell_writeCell_other (a b : Nat) (v : α) (cells : List (Nat × α)) (h : b ≠ a) :
    readCell (writeCell a v cells) b = readCell cells b := by
  induction cells with
  | nil => simp [writeCell, Ne.symm h]
  | cons c rest ih =>
    obtain ⟨k, w⟩ := c
    simp only [writeCell]
    split
    · simp [Ne.symm h]
    · split
      · next hk => subst hk; simp [Ne.symm h]
      · simp [ih]

/-- The offsets a write lists: those listed before and the one written. -/
theorem mem_writeCell (a : Nat) (v : α) (cells : List (Nat × α)) (c : Nat × α) (h : c ∈ writeCell a v cells) :
    c = (a, v) ∨ c ∈ cells := by
  induction cells with
  | nil => simpa [writeCell] using h
  | cons d rest ih =>
    obtain ⟨k, w⟩ := d
    simp only [writeCell] at h
    split at h
    · simpa using h
    · split at h
      · rcases List.mem_cons.mp h with h | h
        · exact .inl h
        · exact .inr (List.mem_cons_of_mem _ h)
      · rcases List.mem_cons.mp h with h | h
        · exact .inr (h ▸ List.mem_cons_self)
        · exact (ih h).imp id (List.mem_cons_of_mem _)

/-- A write keeps the canonical form. -/
theorem cellsWf_writeCell (a : Nat) (v : α) (cells : List (Nat × α)) (h : CellsWf cells) :
    CellsWf (writeCell a v cells) := by
  induction cells with
  | nil => simp [writeCell, CellsWf]
  | cons d rest ih =>
    obtain ⟨k, w⟩ := d
    have hall : ∀ c ∈ rest, k < c.1 := fun c hc =>
      (List.pairwise_cons.mp h).1 c.1 (List.mem_map_of_mem hc)
    have hrest : CellsWf rest := (List.pairwise_cons.mp h).2
    simp only [writeCell]
    split
    · next hlt =>
      refine List.pairwise_cons.mpr ⟨?_, h⟩
      intro x hx
      rcases List.mem_cons.mp hx with rfl | hx
      · exact hlt
      · obtain ⟨c, hc, rfl⟩ := List.mem_map.mp hx
        exact hlt.trans (hall c hc)
    · split
      · next heq => subst heq; exact h
      · next hlt hne =>
        refine List.pairwise_cons.mpr ⟨?_, ih hrest⟩
        intro x hx
        obtain ⟨c, hc, rfl⟩ := List.mem_map.mp hx
        rcases mem_writeCell a v rest c hc with rfl | hc
        · show k < a; omega
        · exact hall c hc

/-- The offsets of a sequence's cells are the consecutive ones from its base. -/
theorem map_fst_cellsFrom (a : Nat) (s : List α) : (cellsFrom a s).map Prod.fst = List.range' a s.length := by
  induction s generalizing a with
  | nil => rfl
  | cons v rest ih => simp [cellsFrom, ih, List.range'_succ]

/-- The cells of a sequence are in the canonical form. -/
theorem cellsWf_cellsFrom (a : Nat) (s : List α) : CellsWf (cellsFrom a s) := by
  rw [CellsWf, map_fst_cellsFrom]
  exact List.pairwise_lt_range' (step := 1)

/-- Reading the cells of a sequence: element `i` at offset `a + i`, nothing elsewhere. -/
theorem readCell_cellsFrom (a b : Nat) (s : List α) :
    readCell (cellsFrom a s) b = if a ≤ b then s[b - a]? else none := by
  induction s generalizing a with
  | nil => simp [cellsFrom]
  | cons v rest ih =>
    simp only [cellsFrom, readCell_cons, ih]
    rcases lt_trichotomy a b with h | rfl | h
    · have e : b - a = (b - (a + 1)) + 1 := by omega
      rw [if_neg (by omega), if_pos (by omega), if_pos (by omega), e, List.getElem?_cons_succ]
    · simp
    · rw [if_neg (by omega), if_neg (by omega), if_neg (by omega)]

end Sys2Proof.Machine
end

