-- ==== Sys2Proof/Laws/Ops.lean ====
section
/-! SUPPORT. One lemma per shared operation that says what it can do, for callers to cite: the table, the memory reads,
the end of a command, an error, and the issue of a word. -/

namespace Sys2Proof.Machine

/-! ### The memories as the commands and the host read them -/

@[simp] theorem length_srcBytes (s : State) (n : Nat) : (srcBytes s n).length = n := by simp [srcBytes]

@[simp] theorem length_dstBytes (s : State) (n : Nat) : (dstBytes s n).length = n := by simp [dstBytes]

@[simp] theorem length_opSrc (s : State) : (opSrc s).length = s.srcLen.toNat := by simp [opSrc, opL]

/-- A read of SRC depends on the SRC memory alone. -/
theorem srcByte_congr {s t : State} (h : t.src = s.src) (a : Nat) : srcByte t a = srcByte s a := by
  simp [srcByte, h]

/-- A read of DST depends on the DST memory alone. -/
theorem dstByte_congr {s t : State} (h : t.dst = s.dst) (a : Nat) : dstByte t a = dstByte s a := by
  simp [dstByte, h]

/-- A read of TBL depends on the TBL memory alone. -/
theorem tblEntry_congr {s t : State} (h : t.tbl = s.tbl) (n : Nat) : tblEntry t n = tblEntry s n := by
  simp [tblEntry, h]

/-- After an output of a DST-writing command, DST holds it from offset 0 (R31). -/
theorem dstBytes_of_cells (t : State) (out : List Byte) (n : Nat) (h : t.dst.cells = cellsFrom 0 out)
    (hn : n ≤ out.length) : dstBytes t n = out.take n := by
  apply List.ext_getElem
  · simp [hn]
  · intro i h1 h2
    have hi : i < n := by simpa using h1
    simp [dstBytes, dstByte, h, readCell_cellsFrom, List.getElem?_eq_getElem (show i < out.length by omega)]

/-- A host write to SRC below the capacity is read back. -/
theorem srcByte_writeSrc_same (a : Nat) (b : Byte) (s : State) (h : a < s.params.srcCap) :
    srcByte (writeSrc a b s) a = b := by
  simp [srcByte, h, readCell_writeCell_same]

/-- A host write to SRC leaves every other byte alone. -/
theorem srcByte_writeSrc_other (a c : Nat) (b : Byte) (s : State) (h : c ≠ a) :
    srcByte (writeSrc a b s) c = srcByte s c := by
  by_cases hc : a < s.params.srcCap <;> simp [srcByte, hc, readCell_writeCell_other _ _ _ _ h]

/-! ### The CRC table (R116) -/

/-- A table just built holds `crc_table(n)` at every index. -/
theorem tblEntry_of_built {s : State} (h : s.tbl.cells = builtCells) (n : Nat) (hn : n < 256) :
    tblEntry s n = Fn.crcTable (BitVec.ofNat 8 n) := by
  simp [tblEntry, h, builtCells, readCell_cellsFrom, hn]

/-- `ensure_table` leaves the table built, from every state whose table is right if it is valid. -/
theorem ensureTable_built (s : State) (h : TableOk s) : TableBuilt (ensureTable s) := by
  refine ⟨ensureTable_tblValid s, fun n hn => ?_⟩
  cases hv : s.tblValid
  · exact tblEntry_of_built (by simp [hv]) n hn
  · rw [tblEntry_congr (s := s) (by simp [hv])]
    exact h hv n hn

/-- Once the table is valid `ensure_table` writes nothing. -/
theorem ensureTable_of_valid (s : State) (h : s.tblValid = true) : ensureTable s = s := by simp [ensureTable, h]

/-- The engine's CRC through a built table is the function layer's (R111). -/
theorem crcEngine_eq_crc32 (s : State) (h : TableBuilt s) : crcEngine s = Fn.crc32 := by
  have : (fun k : Byte => tblEntry s k.toNat) = Fn.crcTable := by
    funext k
    rw [h.2 k.toNat k.isLt]
    simp
  funext bytes
  simp [crcEngine, Fn.crc32, this]

/-! ### The canonical form of the memories -/

/-- Reset lists nothing. -/
theorem memories_wf_reset : State.reset.src.wf ∧ State.reset.dst.wf ∧ State.reset.tbl.wf := by decide +kernel

/-- A host write keeps SRC in its canonical form. -/
theorem src_wf_writeSrc (a : Nat) (b : Byte) (s : State) (h : s.src.wf) : (writeSrc a b s).src.wf := by
  unfold writeSrc
  split
  · exact cellsWf_writeCell a b s.src.cells h
  · exact h

/-- An output is in canonical form, whatever DST held. -/
theorem dst_wf_putOutput (n : Nat) (out : List Byte) (s : State) : (putOutput n out s).dst.wf := cellsWf_cellsFrom 0 out

/-- No output is in canonical form. -/
theorem dst_wf_dropOutput (s : State) : (dropOutput s).dst.wf := .nil

/-- The table initialiser keeps TBL in its canonical form. -/
theorem tbl_wf_ensureTable (s : State) (h : s.tbl.wf) : (ensureTable s).tbl.wf := by
  unfold ensureTable
  split
  · exact h
  · exact cellsWf_cellsFrom 0 _

/-- Reset leaves the three memories in canonical form. -/
theorem memories_wf_resetBlock (s : State) :
    (resetBlock s).src.wf ∧ (resetBlock s).dst.wf ∧ (resetBlock s).tbl.wf := ⟨.nil, .nil, .nil⟩

/-! ### How a command ends (R193, R194) -/

/-- A command whose checks report no error ends in its success state, with code 0. -/
theorem finish_none (i : Instr) (ok s : State) : finish i none ok s = .next (complete ok) := rfl

/-- A command whose checks report an error ends with it. -/
theorem finish_some (i : Instr) (e : ErrorKind) (ok s : State) :
    finish i (some e) ok s = .next (raiseError (some i) e s) := rfl

/-- No error has code 0. -/
theorem code_ne_zero (e : ErrorKind) : e.code ≠ 0#4 := by cases e <;> decide

/-- Everything a command can end in: success with code 0, or an error with its code. -/
theorem finish_cases {i : Instr} {error : Option ErrorKind} {ok s t : State} (h : finish i error ok s = .next t) :
    (error = none ∧ t = complete ok ∧ t.errcode = 0#4) ∨
    (∃ e, error = some e ∧ t = raiseError (some i) e s ∧ t.errcode = e.code ∧ t.errcode ≠ 0#4) := by
  cases error with
  | none =>
    cases h
    exact .inl ⟨rfl, rfl, rfl⟩
  | some e =>
    cases h
    exact .inr ⟨e, rfl, rfl, by simp, by simpa using code_ne_zero e⟩

/-- An error of a command that does not write DST changes ERRCODE only (R193). -/
theorem raiseError_of_not_writesDst (i : Instr) (e : ErrorKind) (s : State) (h : writesDst i = false) :
    raiseError (some i) e s = { s with errcode := e.code } := by
  simp [raiseError, h, setErrcode]

/-- An error of a DST-writing command leaves no output (R193). -/
theorem raiseError_of_writesDst (i : Instr) (e : ErrorKind) (s : State) (h : writesDst i = true) :
    raiseError (some i) e s =
      { s with errcode := e.code, dstLen := 0#32, dst := { cells := [], draw := s.draws }, draws := s.draws + 1 } := by
  simp [raiseError, h, setErrcode, dropOutput]

/-- An error of a DST-writing command, in the terms of the statements (R193). -/
theorem raiseError_outputLost (i : Instr) (e : ErrorKind) (s : State) (h : writesDst i = true) :
    OutputLost e.code s (raiseError (some i) e s) := by
  rw [raiseError_of_writesDst i e s h]
  exact ⟨rfl, rfl⟩

/-- An illegal word changes ERRCODE only (R83, R193). -/
theorem raiseError_illegal (s : State) : raiseError none .illegalCommand s = { s with errcode := 5#4 } := rfl

/-- The checks and the success state of every command: `exec` is `finish` of them. -/
def commandError : Instr → State → Option ErrorKind
  | .tblinit, _ => none
  | .crc32, s => sourceError s
  | .adler32, s => sourceError s
  | .filter, s => filterError s
  | .store, s => packError (storeOutLen s) s
  | .zpack, s => packError (zpackOutLen s) s
  | .chunk, s => chunkError s
  | .encode, s => encodeError s

/-- The state every command leaves before it records code 0, when no check reports an error. -/
def commandSuccess : Instr → State → State
  | .tblinit, s => ensureTable s
  | .crc32, s => setResult (crcEngine (ensureTable s) (opSrc s)) (ensureTable s)
  | .adler32, s => setResult (adlerEngine (opSrc s)) s
  | .filter, s => putOutput (filterOutLen s) (Fn.filter (opSrc s) (opW s) (opH s) (opC s)) s
  | .store, s => putOutput (storeOutLen s) (Fn.storedBlocks (opSrc s)) s
  | .zpack, s => putOutput (zpackOutLen s) (Fn.zlibWrapWith adlerEngine (opSrc s)) s
  | .chunk, s =>
    putOutput (chunkOutLen s) (Fn.chunkWith (crcEngine (ensureTable s)) (opType s) (opSrc s)) (ensureTable s)
  | .encode, s =>
    putOutput (encodeOutLen s)
      (Fn.encodeWith (crcEngine (ensureTable s)) adlerEngine (opW s) (opH s) (opC s) (opSrc s)) (ensureTable s)

/-- Every command is its checks, then its success state or an error. -/
theorem exec_eq_finish (i : Instr) (s : State) :
    exec i s = finish i (commandError i s) (commandSuccess i s) s := by cases i <;> rfl

/-- Everything a command can do: it ends in its success state with code 0, or in one error. -/
theorem exec_cases {i : Instr} {s t : State} (h : exec i s = .next t) :
    (commandError i s = none ∧ t = complete (commandSuccess i s) ∧ t.errcode = 0#4) ∨
    (∃ e, commandError i s = some e ∧ t = raiseError (some i) e s ∧ t.errcode = e.code ∧ t.errcode ≠ 0#4) :=
  finish_cases (exec_eq_finish i s ▸ h)

/-- Every command answers a next state. -/
theorem exec_next (i : Instr) (s : State) : ∃ t, exec i s = .next t := ⟨_, exec_eq_finish i s⟩

end Sys2Proof.Machine
end

