-- ==== Sys2Proof/Laws/PerInstr.lean ====
section
/-! SUPPORT. What is said of every command as syntax, one lemma per constructor. -/

namespace Sys2Proof.Laws.WordLegal

/-- R80, R83: the command word of a command is legal. -/
def Statement (i : Sys2Proof.Instr) : Prop := legalWord (encode i) = true

theorem tblinit : Statement .tblinit := rfl
theorem crc32 : Statement .crc32 := rfl
theorem adler32 : Statement .adler32 := rfl
theorem filter : Statement .filter := rfl
theorem store : Statement .store := rfl
theorem zpack : Statement .zpack := rfl
theorem chunk : Statement .chunk := rfl
theorem encode : Statement .encode := rfl

end Sys2Proof.Laws.WordLegal
end

