-- ==== Sys2Proof/Laws/Step.lean ====
section
/-! SUPPORT. What a step is, once: the transaction at the head of the host's queue, and the lookups it makes. -/

namespace Sys2Proof.Machine

/-- The state a transaction starts from: the transaction taken off the queue, nothing returned yet. -/
abbrev State.taken (s : State) (rest : List Transaction) : State := { s with pending := rest, response := none }

/-- A step performs the transaction at the head of the queue. -/
theorem step_cons {s : State} {t : Transaction} {rest : List Transaction} (h : s.pending = t :: rest) :
    step s = transact t (s.taken rest) := by simp [step, performNext, h, State.taken]

/-- Every step is idle or performs a transaction. -/
theorem step_cases {s t : State} (h : step s = .next t) :
    (s.pending = [] ∧ t = s) ∨ (∃ r rest, s.pending = r :: rest ∧ transact r (s.taken rest) = .next t) := by
  cases hp : s.pending with
  | nil => exact .inl ⟨rfl, by simpa [step, performNext, hp, eq_comm] using h⟩
  | cons r rest => exact .inr ⟨r, rest, rfl, by rw [← step_cons hp, h]⟩

/-- A word placed by `withFetchWord` is the word the next step issues. -/
theorem step_withFetchWord (s : State) (nbits w : Nat) :
    step (s.withFetchWord nbits w) = issue (BitVec.ofNat 32 (w % 2 ^ nbits)) { s with response := none } := rfl

/-- The register map by byte offset (R51). -/
theorem atIndex_eq (k : BitVec 30) : Reg.atIndex k =
    if 4 * k.toNat = 0x00 then some .cmd else if 4 * k.toNat = 0x04 then some .status
    else if 4 * k.toNat = 0x08 then some .width else if 4 * k.toNat = 0x0C then some .height
    else if 4 * k.toNat = 0x10 then some .channels else if 4 * k.toNat = 0x14 then some .srcLen
    else if 4 * k.toNat = 0x18 then some .ctype else if 4 * k.toNat = 0x1C then some .result
    else if 4 * k.toNat = 0x20 then some .dstLen else none := by
  have key : ∀ n : Nat, (Reg.all.find? fun r => r.offset == n) =
      if n = 0x00 then some .cmd else if n = 0x04 then some .status
      else if n = 0x08 then some .width else if n = 0x0C then some .height
      else if n = 0x10 then some .channels else if n = 0x14 then some .srcLen
      else if n = 0x18 then some .ctype else if n = 0x1C then some .result
      else if n = 0x20 then some .dstLen else none := by
    intro n
    by_cases h : n ≤ 0x20
    · interval_cases n <;> rfl
    · have ne : ∀ m : Nat, m ≤ 0x20 → n ≠ m := by omega
      have nb : ∀ r : Reg, (r.offset == n) = false := by
        intro r
        rw [beq_eq_false_iff_ne]
        exact (ne _ (by cases r <;> decide)).symm
      simp [Reg.all, List.find?, nb, ne]
  exact key _

/-- STATUS as a number: bit 0 is the flag, bits 11:8 the code (R27). -/
theorem status_eq (s : State) : s.status = BitVec.ofNat 32 (s.tblValid.toNat + 256 * s.errcode.toNat) := by
  have : ∀ (e : BitVec 4) (b : Bool),
      (0#20 ++ e ++ 0#7 ++ BitVec.ofBool b : BitVec 32) = BitVec.ofNat 32 (b.toNat + 256 * e.toNat) := by decide
  exact this _ _

/-- Everything the write of a word to CMD can do (R84). -/
theorem issue_cases {v : Word} {s t : State} (h : issue v s = .next t) :
    (∃ i, decode v = .ok i ∧ exec i s = .next t) ∨
    ((∃ e, decode v = .error e) ∧ t = { s with errcode := 5#4 }) := by
  unfold issue at h
  cases hd : decode v with
  | ok i => exact .inl ⟨i, rfl, by simpa [hd] using h⟩
  | error e => exact .inr ⟨⟨e, rfl⟩, by rw [hd] at h; injection h with h; exact h.symm⟩

/-- Everything a transaction can do: issue a word, write a register or a byte of SRC, reset, or change nothing but the
value it returns. -/
theorem transact_cases {r : Transaction} {s t : State} (h : transact r s = .next t) :
    (∃ k v, r = .regWrite k v ∧ Reg.atIndex k = some .cmd ∧ issue v s = .next t) ∨
    (∃ k v q, r = .regWrite k v ∧ t = writeReg q v s) ∨
    (∃ a b, r = .srcWrite a b ∧ t = writeSrc a.toNat b s) ∨
    (r = .reset ∧ t = resetBlock s) ∨
    (t = { s with response := t.response }) := by
  cases r with
  | regWrite k v =>
    simp only [transact, hostRegWrite] at h
    split at h
    · next hk => exact .inl ⟨k, v, rfl, hk, h⟩
    · next q _ hk => injection h with h; exact .inr (.inl ⟨k, v, q, rfl, h.symm⟩)
    · injection h with h; subst h; exact .inr (.inr (.inr (.inr rfl)))
  | srcWrite a b => injection h with h; exact .inr (.inr (.inl ⟨a, b, rfl, h.symm⟩))
  | reset => injection h with h; exact .inr (.inr (.inr (.inl ⟨rfl, h.symm⟩)))
  | _ => injection h with h; subst h; exact .inr (.inr (.inr (.inr rfl)))

end Sys2Proof.Machine
end

