-- ==== Sys2Proof/Tests/Slice0.lean ====
section
/-! SUPPORT. The model's own tests: the checks of WellFormed, decoding of words written out from R80 and R81, one or two
steps per command with the results of `95_test_vectors.md`, and a witness for the hypotheses of every statement. -/

namespace Sys2Proof.Machine.Tests

set_option Elab.async false

/-! ### Small states -/

/-- Whether an outcome is a next state of which a check holds. -/
def nextIs (o : Host.Outcome State Fault Refusal) (p : State → Bool) : Bool :=
  match o with
  | .next t => p t
  | .fault _ => false
  | .refused _ => false

/-- `LDSRC bytes` on the reset state of an instance with the given capacities. -/
def loaded (caps : Params) (bytes : List Byte) : State :=
  { State.reset with
    params := caps
    src := { cells := cellsFrom 0 bytes, draw := 0 }
    srcLen := BitVec.ofNat 32 bytes.length }

/-- `SETIMG w, h, c` and `LDSRC bytes` on the reset state. -/
def image (caps : Params) (w h c : Word) (bytes : List Byte) : State :=
  { loaded caps bytes with width := w, height := h, channels := c }

/-- The capacities of V-ERR-10, `SRC_CAP = 16` and `DST_CAP = 1024`. -/
def caps : Params := { srcCap := 16, dstCap := 1024 }

/-- The smallest image, that of V-ENC-F. -/
def smallest : State := image caps 1#32 1#32 3#32 [0x01#8, 0x02#8, 0x03#8]

/-- The same with the table built. -/
def smallestBuilt : State := buildTable smallest

/-- `smallest` with the host about to perform a transaction. -/
def about (r : Transaction) (rest : List Transaction) : State := { smallest with pending := r :: rest }

/-! ### WellFormed: an ill-formed value for each check -/

theorem test_legal_word_refuses_reserved_bits : legalWord 0x00000101#32 = false := by decide +kernel
theorem test_legal_word_refuses_opcode_zero : legalWord 0x00000000#32 = false := by decide +kernel
theorem test_legal_word_refuses_opcode_nine : legalWord 0x00000009#32 = false := by decide +kernel
theorem test_legal_word_takes_encode : legalWord 0x00000008#32 = true := by decide +kernel
theorem test_params_refuse_no_source : Params.wellFormed { srcCap := 0, dstCap := 1 } = false := by decide +kernel
theorem test_params_refuse_wide_source : Params.wellFormed { srcCap := 4294967296, dstCap := 1 } = false := by
  decide +kernel
theorem test_params_refuse_no_destination : Params.wellFormed { srcCap := 1, dstCap := 0 } = false := by decide +kernel
theorem test_params_refuse_wide_destination : Params.wellFormed { srcCap := 1, dstCap := 4294967296 } = false := by
  decide +kernel
theorem test_params_take_the_ends : Params.wellFormed { srcCap := 1, dstCap := 4294967295 } = true := by decide +kernel
theorem test_memory_refuses_repeated_offset : ¬CellsWf [(3, 0#8), (3, 1#8)] := by decide +kernel
theorem test_memory_refuses_falling_offsets : ¬CellsWf [(4, 0#8), (3, 1#8)] := by decide +kernel

/-! ### Decoding: words written out bit by bit from R80 (bits 31:8 reserved, bits 7:0 opcode) and R81 -/

theorem test_decode_tblinit : decode 0b00000000000000000000000000000001#32 = .ok .tblinit := by decide +kernel
theorem test_decode_crc32 : decode 0b00000000000000000000000000000010#32 = .ok .crc32 := by decide +kernel
theorem test_decode_adler32 : decode 0b00000000000000000000000000000011#32 = .ok .adler32 := by decide +kernel
theorem test_decode_filter : decode 0b00000000000000000000000000000100#32 = .ok .filter := by decide +kernel
theorem test_decode_store : decode 0b00000000000000000000000000000101#32 = .ok .store := by decide +kernel
theorem test_decode_zpack : decode 0b00000000000000000000000000000110#32 = .ok .zpack := by decide +kernel
theorem test_decode_chunk : decode 0b00000000000000000000000000000111#32 = .ok .chunk := by decide +kernel
theorem test_decode_encode : decode 0b00000000000000000000000000001000#32 = .ok .encode := by decide +kernel
theorem test_decode_rejects_all_ones : decode 0xFFFFFFFF#32 = .error .reservedBitsSet := by decide +kernel
theorem test_decode_rejects_bit_31 : decode 0x80000008#32 = .error .reservedBitsSet := by decide +kernel
theorem test_decode_rejects_last_opcode : decode 0x000000FF#32 = .error .opcodeUnassigned := by decide +kernel
theorem test_decode_table_word : decodeTableWord 32 8 = some .encode := by decide +kernel
theorem test_first_command_after_reset : nextIs (step (State.reset.withFetchWord 32 8)) (fun t => t.errcode == 1#4) := by
  decide +kernel

/-! ### The commands (`95_test_vectors.md`) -/

/-- V-TBL-5. -/
theorem test_tblinit_builds_table : nextIs (exec .tblinit smallest) (fun t =>
    tblEntry t 1 == 0x77073096#32 && tblEntry t 255 == 0x2D02EF8D#32 && t.status == 0x00000001#32) := by decide +kernel

/-- V-CRC-6. -/
theorem test_crc32_of_iend : nextIs (exec .crc32 (loaded caps [0x49#8, 0x45#8, 0x4E#8, 0x44#8])) (fun t =>
    t.result == 0xAE426082#32 && t.status == 0x00000001#32) := by decide +kernel

/-- V-CRC-7. -/
theorem test_crc32_of_digits : nextIs (exec .crc32 (loaded caps
    [0x31#8, 0x32#8, 0x33#8, 0x34#8, 0x35#8, 0x36#8, 0x37#8, 0x38#8, 0x39#8])) (fun t => t.result == 0xCBF43926#32) := by
  decide +kernel

/-- V-ADL-6. -/
theorem test_adler32_of_wikipedia : nextIs (exec .adler32 (loaded caps
    [0x57#8, 0x69#8, 0x6B#8, 0x69#8, 0x70#8, 0x65#8, 0x64#8, 0x69#8, 0x61#8])) (fun t =>
    t.result == 0x11E60398#32 && t.status == 0x00000000#32) := by decide +kernel

/-- V-ADL-9 at the function layer: one full chunk and one of a single byte. -/
theorem test_adler32_over_a_chunk : adlerEngine (List.replicate 3801 0xFF#8) = 0xA22BCAFA#32 := by decide +kernel

/-- V-FIL-4: three rows. -/
theorem test_filter_three_rows : nextIs (exec .filter (image caps 1#32 3#32 3#32
    [0x01#8, 0x02#8, 0x03#8, 0x04#8, 0x05#8, 0x06#8, 0x07#8, 0x08#8, 0x09#8])) (fun t => t.dstLen == 12#32 &&
    dstBytes t 12 == [0x00#8, 0x01#8, 0x02#8, 0x03#8, 0x00#8, 0x04#8, 0x05#8, 0x06#8, 0x00#8, 0x07#8, 0x08#8, 0x09#8]) := by
  decide +kernel

/-- V-ERR-8: the product of R192 is over naturals. -/
theorem test_filter_product_does_not_wrap : nextIs (exec .filter (image caps 0x00010000#32 0x00010000#32 4#32 []))
    (fun t => t.errcode == 2#4 && t.dstLen == 0#32) := by decide +kernel

/-- V-STO-1. -/
theorem test_store_abc : nextIs (exec .store (loaded caps [0x61#8, 0x62#8, 0x63#8])) (fun t => t.dstLen == 8#32 &&
    dstBytes t 8 == [0x01#8, 0x03#8, 0x00#8, 0xFC#8, 0xFF#8, 0x61#8, 0x62#8, 0x63#8]) := by decide +kernel

/-- V-ERR-13. -/
theorem test_store_empty : nextIs (exec .store (loaded caps [])) (fun t => t.errcode == 6#4 && t.dstLen == 0#32) := by
  decide +kernel

/-- V-ZPK-1. -/
theorem test_zpack_abc : nextIs (exec .zpack (loaded caps [0x61#8, 0x62#8, 0x63#8])) (fun t => t.dstLen == 14#32 &&
    dstBytes t 14 == [0x78#8, 0x01#8, 0x01#8, 0x03#8, 0x00#8, 0xFC#8, 0xFF#8, 0x61#8, 0x62#8, 0x63#8,
      0x02#8, 0x4D#8, 0x01#8, 0x27#8]) := by decide +kernel

/-- V-ERR-14d. -/
theorem test_zpack_does_not_fit : nextIs (exec .zpack (loaded { srcCap := 16, dstCap := 15 }
    [0x01#8, 0x02#8, 0x03#8, 0x04#8, 0x05#8])) (fun t => t.errcode == 4#4 && t.dstLen == 0#32) := by decide +kernel

/-- V-CHK-2. -/
theorem test_chunk_abcd : nextIs (exec .chunk { loaded caps [0x78#8, 0x79#8, 0x7A#8] with ctype := 0x61626364#32 })
    (fun t => t.dstLen == 15#32 && dstBytes t 15 == [0x00#8, 0x00#8, 0x00#8, 0x03#8, 0x61#8, 0x62#8, 0x63#8, 0x64#8,
      0x78#8, 0x79#8, 0x7A#8, 0x8B#8, 0x88#8, 0x38#8, 0xC2#8]) := by decide +kernel

/-- V-ERR-14b: exactly at the capacity. -/
theorem test_chunk_fits_exactly : nextIs (exec .chunk (loaded { srcCap := 16, dstCap := 15 } [0x01#8, 0x02#8, 0x03#8]))
    (fun t => t.errcode == 0#4 && t.dstLen == 15#32) := by decide +kernel

/-- V-ENC-F, the smallest file. -/
theorem test_encode_smallest : nextIs (exec .encode smallest) (fun t => t.dstLen == 72#32 && dstBytes t 72 ==
    [0x89#8, 0x50#8, 0x4E#8, 0x47#8, 0x0D#8, 0x0A#8, 0x1A#8, 0x0A#8, 0x00#8, 0x00#8, 0x00#8, 0x0D#8,
     0x49#8, 0x48#8, 0x44#8, 0x52#8, 0x00#8, 0x00#8, 0x00#8, 0x01#8, 0x00#8, 0x00#8, 0x00#8, 0x01#8,
     0x08#8, 0x02#8, 0x00#8, 0x00#8, 0x00#8, 0x90#8, 0x77#8, 0x53#8, 0xDE#8, 0x00#8, 0x00#8, 0x00#8,
     0x0F#8, 0x49#8, 0x44#8, 0x41#8, 0x54#8, 0x78#8, 0x01#8, 0x01#8, 0x04#8, 0x00#8, 0xFB#8, 0xFF#8,
     0x00#8, 0x01#8, 0x02#8, 0x03#8, 0x00#8, 0x0E#8, 0x00#8, 0x07#8, 0x2D#8, 0xA2#8, 0x33#8, 0xEC#8,
     0x00#8, 0x00#8, 0x00#8, 0x00#8, 0x49#8, 0x45#8, 0x4E#8, 0x44#8, 0xAE#8, 0x42#8, 0x60#8, 0x82#8]) := by
  decide +kernel

/-- V-ERR-4. -/
theorem test_encode_rejects_one_channel : nextIs (exec .encode (image caps 2#32 2#32 1#32
    [0x01#8, 0x02#8, 0x03#8, 0x04#8])) (fun t => t.errcode == 3#4 && t.status == 0x00000300#32) := by decide +kernel

/-! ### Host transactions -/

/-- P4: a word with reserved bit 8 set changes ERRCODE only (V-ERR-15d). -/
theorem test_illegal_word : nextIs (step (about (.regWrite 0#30 0x00000108#32) []))
    (fun t => t.status == 0x00000500#32 && t.srcLen == 3#32) := by decide +kernel

/-- V-RST-4: a reserved offset reads 0, and a write to a read-only register is ignored. -/
theorem test_reserved_offset_reads_zero : nextIs (step (about (.regRead 9#30) [])) (fun t => t.response == some 0#32) := by
  decide +kernel
theorem test_result_is_read_only : nextIs (step (about (.regWrite 7#30 5#32) [])) (fun t => t.result == 0#32) := by
  decide +kernel

/-- V-RST-4: with `SRC_CAP = 16`, `SB 16, 0x55` is ignored. -/
theorem test_source_write_out_of_range : nextIs (step (about (.srcWrite 16#32 0x55#8) []))
    (fun t => t.src == smallest.src) := by decide +kernel

/-- R86, R87: `WR SRC_LEN, 4` is `(0, 1, 0x14, 4)`, and `SETTYPE "IEND"` is `WR CTYPE, 0x49454E44`. -/
theorem test_request_of_write : (scriptWr .srcLen 4#32).toRequest =
    some { space := 0#2, write := true, addr := 0x14#32, wdata := 4#32 } := by decide +kernel
theorem test_settype : scriptSettype 0x49#8 0x45#8 0x4E#8 0x44#8 = [.regWrite 6#30 0x49454E44#32] := by decide +kernel
theorem test_ldsrc : scriptLdsrc [0x61#8] = [.srcWrite 0#32 0x61#8, .regWrite 5#30 1#32] := by decide +kernel
theorem test_misaligned_request_is_none :
    Request.toTransaction { space := 0#2, write := true, addr := 0x15#32, wdata := 4#32 } = none := by decide +kernel
theorem test_expectation : expectationMet (scriptExpect .srcLen 3#32) smallest = true := by decide +kernel

/-! ### Witnesses: the hypotheses of each statement hold together somewhere -/

theorem smallest_tableOk : TableOk smallest := by intro h; cases h

theorem smallestBuilt_tableBuilt : TableBuilt smallestBuilt := ⟨rfl, fun n hn => tblEntry_of_built rfl n hn⟩

theorem smallest_inv : smallest.Inv where
  params := by decide +kernel
  srcWf := by decide +kernel
  dstWf := by decide +kernel
  tblWf := by decide +kernel
  srcRange := by decide +kernel
  dstOutput := rfl
  dstFits := by decide +kernel
  errcodeRange := by decide +kernel
  table := smallest_tableOk
  tableUnbuilt := fun _ => rfl
  drawsFresh := by decide +kernel

theorem witness_DecodeInvertsEncode : decode 0x00000008#32 = .ok .encode := by decide +kernel
theorem witness_IllegalWordOnlySetsErrcode :
    ¬((0x00000000#32).toNat / 256 = 0 ∧ 1 ≤ (0x00000000#32).toNat % 256 ∧ (0x00000000#32).toNat % 256 ≤ 8) ∧
    ¬((0x00000009#32).toNat / 256 = 0 ∧ 1 ≤ (0x00000009#32).toNat % 256 ∧ (0x00000009#32).toNat % 256 ≤ 8) ∧
    ¬((0x00000101#32).toNat / 256 = 0 ∧ 1 ≤ (0x00000101#32).toNat % 256 ∧ (0x00000101#32).toNat % 256 ≤ 8) := by
  decide +kernel
theorem witness_StepRunsIssuedCommand : (about (.regWrite 0#30 0x00000008#32) []).pending =
    .regWrite 0#30 0x00000008#32 :: [] ∧ decode 0x00000008#32 = .ok .encode := by decide +kernel
theorem witness_IdleHoldsAllState : smallest.pending = [] := rfl
theorem witness_RegisterMap_cmd : (about (.regWrite 0#30 1#32) []).pending = .regWrite 0#30 1#32 :: [] ∧
    4 * (0#30).toNat = 0x00 := by decide +kernel
theorem witness_RegisterMap_write : (about (.regWrite 6#30 1#32) []).pending = .regWrite 6#30 1#32 :: [] ∧
    4 * (6#30).toNat ≠ 0x00 := by decide +kernel
theorem witness_RegisterMap_write_above : (about (.regWrite 0x3FFFFFFF#30 1#32) []).pending =
    .regWrite 0x3FFFFFFF#30 1#32 :: [] ∧ 4 * (0x3FFFFFFF#30).toNat ≠ 0x00 := by decide +kernel
theorem witness_RegisterMap_read : (about (.regRead 8#30) []).pending = .regRead 8#30 :: [] := rfl
theorem witness_SourceSpace_last_offset : (about (.srcWrite 15#32 0x55#8) []).pending = .srcWrite 15#32 0x55#8 :: [] ∧
    (15#32).toNat < (about (.srcWrite 15#32 0x55#8) []).params.srcCap := by decide +kernel
theorem witness_SourceSpace_beyond : (about (.srcWrite 16#32 0x55#8) []).pending = .srcWrite 16#32 0x55#8 :: [] ∧
    (about (.srcWrite 16#32 0x55#8) []).params.srcCap ≤ (16#32).toNat := by decide +kernel
theorem witness_SourceSpace_read : (about (.srcRead 16#32) []).pending = .srcRead 16#32 :: [] := rfl
theorem witness_SourceSpace_unwritten : readCell State.reset.src.cells 0 = none := rfl
theorem witness_SourceSpace_unwritten_beside : readCell smallest.src.cells 2 = some 0x03#8 ∧
    readCell smallest.src.cells 3 = none := by decide +kernel
theorem witness_SourceSpace_command : ∃ t, exec .encode smallest = .next t := ⟨_, rfl⟩
theorem witness_DestinationSpace_write : (about (.dstWrite 0#32 1#8) []).pending = .dstWrite 0#32 1#8 :: [] := rfl
theorem witness_DestinationSpace_read : (about (.dstRead 1024#32) []).pending = .dstRead 1024#32 :: [] := rfl
theorem witness_TableSpace_write : (about (.tblWrite 0#32 1#32) []).pending = .tblWrite 0#32 1#32 :: [] := rfl
theorem witness_TableSpace_above : (about (.tblRead 256#32) []).pending = .tblRead 256#32 :: [] ∧
    255 < (256#32).toNat := by decide +kernel
theorem witness_TableSpace_built :
    ({ smallestBuilt with pending := [.tblRead 255#32] } : State).pending = .tblRead 255#32 :: [] ∧
    (255#32).toNat ≤ 255 ∧ TableBuilt { smallestBuilt with pending := [.tblRead 255#32] } :=
  ⟨rfl, by decide +kernel, rfl, smallestBuilt_tableBuilt.2⟩
theorem witness_TableSpace_unbuilt : (about (.tblRead 255#32) []).pending = .tblRead 255#32 :: [] ∧
    (255#32).toNat ≤ 255 ∧ (about (.tblRead 255#32) []).tbl.cells = [] := by decide +kernel
theorem witness_ReadsAreIdempotent : ∃ t u, (about (.srcRead 0#32) [.srcRead 0#32]).pending =
    .srcRead 0#32 :: .srcRead 0#32 :: [] ∧ step (about (.srcRead 0#32) [.srcRead 0#32]) = .next t ∧ step t = .next u :=
  ⟨_, _, rfl, rfl, rfl⟩
theorem witness_ResetTransactionClearsBlock : (about .reset []).pending = .reset :: [] := rfl
theorem about_inv (r : Transaction) : (about r []).Inv :=
  ⟨smallest_inv.params, smallest_inv.srcWf, smallest_inv.dstWf, smallest_inv.tblWf, smallest_inv.srcRange,
    smallest_inv.dstOutput, smallest_inv.dstFits, smallest_inv.errcodeRange, smallest_tableOk, smallest_inv.tableUnbuilt,
    smallest_inv.drawsFresh⟩
theorem witness_StepKeepsInvariant : (about (scriptCommand .encode) []).Inv ∧
    ∃ t, step (about (scriptCommand .encode) []) = .next t := ⟨about_inv _, _, rfl⟩
theorem witness_StepKeepsCapacities : ∃ t, step (about (scriptCommand .encode) []) = .next t := ⟨_, rfl⟩
theorem witness_BuiltTableIsImmutable :
    ({ smallestBuilt with pending := [scriptCommand .encode] } : State).pending.head? ≠ some .reset ∧
    smallestBuilt.tblValid = true ∧ ∃ t, step { smallestBuilt with pending := [scriptCommand .encode] } = .next t :=
  ⟨by decide +kernel, rfl, _, rfl⟩
theorem witness_TableFlagSetOnlyByTableCommands : ∃ t, exec .chunk smallest = .next t := ⟨_, rfl⟩
theorem witness_SourceChangesOnlyByHost :
    (about (scriptCommand .encode) []).pending.head? ≠ some .reset ∧
    (∀ a b, (about (scriptCommand .encode) []).pending.head? ≠ some (.srcWrite a b)) ∧
    ∃ t, step (about (scriptCommand .encode) []) = .next t :=
  ⟨by decide +kernel, fun _ _ h => (by cases h), _, rfl⟩
theorem witness_ResultKept_other_command : ∃ t, exec .encode smallest = .next t ∧
    (Instr.encode ≠ .crc32 ∧ Instr.encode ≠ .adler32) := ⟨_, rfl, by decide +kernel⟩
theorem witness_ResultKept_error : ∃ t, exec .crc32 { smallest with srcLen := 17#32 } = .next t ∧ t.errcode ≠ 0#4 :=
  ⟨_, rfl, by decide +kernel⟩
theorem witness_ChecksumCommandsFrame : (∃ t, exec .tblinit smallest = .next t) ∧
    (∃ t, exec .crc32 smallest = .next t) ∧ ∃ t, exec .adler32 smallest = .next t := ⟨⟨_, rfl⟩, ⟨_, rfl⟩, _, rfl⟩
theorem witness_OutputCommandsFrame : (∃ t, exec .filter smallest = .next t) ∧ (∃ t, exec .store smallest = .next t) ∧
    (∃ t, exec .zpack smallest = .next t) ∧ (∃ t, exec .chunk smallest = .next t) ∧ ∃ t, exec .encode smallest = .next t :=
  ⟨⟨_, rfl⟩, ⟨_, rfl⟩, ⟨_, rfl⟩, ⟨_, rfl⟩, _, rfl⟩
theorem witness_ErrorCodesInOrder_illegal : ∀ i, decode 0x00000009#32 ≠ .ok i := by intro i; cases i <;> decide +kernel
theorem witness_ErrorChangesOnlyItsRecord : ∃ t, exec .encode { smallest with width := 0#32 } = .next t ∧
    t.errcode ≠ 0#4 := ⟨_, rfl, by decide +kernel⟩
theorem witness_ErrorChangesOnlyItsRecord_checksum : ∃ t, exec .adler32 { smallest with srcLen := 17#32 } = .next t ∧
    t.errcode ≠ 0#4 := ⟨_, rfl, by decide +kernel⟩
theorem witness_ReissuedCommandGivesSameError : ∃ t u, exec .encode { smallest with width := 0#32 } = .next t ∧
    t.errcode ≠ 0#4 ∧ exec .encode t = .next u := ⟨_, _, rfl, by decide +kernel, rfl⟩
theorem witness_TblinitBuildsTable : smallestBuilt.tblValid = true ∧ smallest.tblValid = false := ⟨rfl, rfl⟩
theorem witness_Crc32_completes : TableOk { smallest with srcLen := 16#32 } ∧
    (16#32).toNat ≤ ({ smallest with srcLen := 16#32 } : State).params.srcCap :=
  ⟨fun h => (by cases h), by decide +kernel⟩
theorem witness_Crc32_completes_built : TableOk smallestBuilt ∧
    smallestBuilt.srcLen.toNat ≤ smallestBuilt.params.srcCap := ⟨fun _ => smallestBuilt_tableBuilt.2, by decide +kernel⟩
theorem witness_Crc32_and_Adler32_too_long :
    ({ smallest with srcLen := 17#32 } : State).params.srcCap < (17#32).toNat := by decide +kernel
theorem witness_Adler32_completes : smallest.srcLen.toNat ≤ smallest.params.srcCap := by decide +kernel
theorem witness_Filter_completes : smallest.params.wellFormed = true ∧ 1 = smallest.width.toNat ∧
    1 = smallest.height.toNat ∧ 3 = smallest.channels.toNat ∧ 3 = smallest.srcLen.toNat ∧ 4 = 1 * (1 * 3 + 1) ∧
    3 = 1 * 1 * 3 ∧ 3 ≤ smallest.params.srcCap ∧ 4 ≤ smallest.params.dstCap := by decide +kernel

/-- `smallest` with a width of 0, with no source byte, and with one more than `SRC_CAP`. -/
def flat : State := { smallest with width := 0#32 }
def empty : State := { smallest with srcLen := 0#32 }
def tooLong : State := { smallest with srcLen := 17#32 }

theorem witness_Filter_error : 1#4 = imageCode flat.width.toNat flat.height.toNat flat.channels.toNat flat.srcLen.toNat
    (flat.height.toNat * (flat.width.toNat * flat.channels.toNat + 1)) flat.params.srcCap flat.params.dstCap ∧
    1#4 ≠ 0#4 := by decide +kernel
theorem witness_Encode_error : 1#4 = imageCode flat.width.toNat flat.height.toNat flat.channels.toNat flat.srcLen.toNat
    (63 + flat.height.toNat * (flat.width.toNat * flat.channels.toNat + 1)
      + 5 * ((flat.height.toNat * (flat.width.toNat * flat.channels.toNat + 1) + 65534) / 65535))
    flat.params.srcCap flat.params.dstCap ∧ 1#4 ≠ 0#4 := by decide +kernel
theorem witness_Store_error : 6#4 = packCode empty.srcLen.toNat
    (empty.srcLen.toNat + 5 * ((empty.srcLen.toNat + 65534) / 65535)) empty.params.srcCap empty.params.dstCap ∧
    6#4 ≠ 0#4 := by decide +kernel
theorem witness_Zpack_error : 6#4 = packCode empty.srcLen.toNat
    (6 + empty.srcLen.toNat + 5 * ((empty.srcLen.toNat + 65534) / 65535)) empty.params.srcCap empty.params.dstCap ∧
    6#4 ≠ 0#4 := by decide +kernel
theorem witness_Chunk_too_long : 4#4 = chunkCode tooLong.srcLen.toNat (12 + tooLong.srcLen.toNat)
    tooLong.params.srcCap tooLong.params.dstCap ∧ 4#4 ≠ 0#4 := by decide +kernel
theorem witness_imageCode_each : imageCode 1 1 5 9 6 16 1024 = 3#4 ∧ imageCode 1 1 4 3 5 16 1024 = 2#4 ∧
    imageCode 5 2 3 30 32 16 1024 = 4#4 ∧ imageCode 2 2 3 12 82 16 81 = 4#4 ∧ imageCode 2 2 3 12 82 16 82 = 0#4 := by
  decide +kernel
theorem witness_Store_completes : smallest.params.wellFormed = true ∧ 3 = smallest.srcLen.toNat ∧
    8 = 3 + 5 * ((3 + 65534) / 65535) ∧ 3 ≤ smallest.params.srcCap ∧ 8 ≤ smallest.params.dstCap := by decide +kernel
theorem witness_Store_and_Zpack_error : packCode 0 0 16 1024 = 6#4 ∧ packCode 17 22 16 1024 = 4#4 ∧
    packCode 5 16 16 15 = 4#4 ∧ packCode 5 10 16 15 = 0#4 := by decide +kernel
theorem witness_Zpack_completes : smallest.params.wellFormed = true ∧ 3 = smallest.srcLen.toNat ∧
    14 = 6 + 3 + 5 * ((3 + 65534) / 65535) ∧ 3 ≤ smallest.params.srcCap ∧ 14 ≤ smallest.params.dstCap := by
  decide +kernel
theorem witness_Chunk_completes : TableOk smallest ∧ smallest.params.wellFormed = true ∧ 3 = smallest.srcLen.toNat ∧
    3 ≤ smallest.params.srcCap ∧ 12 + 3 ≤ smallest.params.dstCap := ⟨smallest_tableOk, by decide +kernel⟩
theorem witness_Chunk_error : chunkCode 17 29 16 1024 = 4#4 ∧ chunkCode 4 16 16 15 = 4#4 ∧ chunkCode 3 15 16 15 = 0#4 := by
  decide +kernel
theorem witness_Encode_completes : TableOk smallest ∧ smallest.params.wellFormed = true ∧ 1 = smallest.width.toNat ∧
    1 = smallest.height.toNat ∧ 3 = smallest.channels.toNat ∧ 3 = smallest.srcLen.toNat ∧ 4 = 1 * (1 * 3 + 1) ∧
    72 = 63 + 4 + 5 * ((4 + 65534) / 65535) ∧ 3 = 1 * 1 * 3 ∧ 3 ≤ smallest.params.srcCap ∧
    72 ≤ smallest.params.dstCap := ⟨smallest_tableOk, by decide +kernel⟩
theorem witness_CommandsDependOnOperandsOnly : TableOk smallest ∧ TableOk smallestBuilt ∧
    SameOperands .encode smallest smallestBuilt ∧ (∃ t, exec .encode smallest = .next t) ∧
    ∃ t, exec .encode smallestBuilt = .next t :=
  ⟨smallest_tableOk, fun _ => smallestBuilt_tableBuilt.2,
    ⟨rfl, fun _ => ⟨rfl, rfl, rfl⟩, fun h => (by cases h), fun _ => ⟨rfl, fun _ _ => rfl⟩⟩, ⟨_, rfl⟩, _, rfl⟩
theorem witness_AdlerSumsNeverOverflow : (List.replicate 3800 0xFF#8).length ≤ 3800 ∧
    (List.replicate 5552 0xFF#8).length ≤ 5552 ∧ (65520 : Nat) ≤ 65520 := by
  rw [List.length_replicate, List.length_replicate]; decide
theorem witness_FilteredBitmapBytes : ([0x01#8, 0x02#8, 0x03#8] : List Byte).length = 1 * 1 * 3 ∧ 0 < 1 * (1 * 3 + 1) ∧
    3 < 1 * (1 * 3 + 1) := by decide +kernel
theorem witness_SpansPartitionInput : ([0x5A#8] : List Byte) ≠ [] ∧ (Fn.spans [0x5A#8])[0]? = some [0x5A#8] := by
  decide +kernel
theorem witness_StoredBlocks_and_ZlibContainer : ([0x5A#8] : List Byte) ≠ [] ∧
    1 = (([0x5A#8] : List Byte).length + 65534) / 65535 ∧ 0 < 1 := by decide +kernel
theorem witness_ChunkFrameLayout : Fn.typeIEND.length = 4 ∧ ([] : List Byte).length < 4294967296 := by decide +kernel
theorem witness_ChunkIsInjective : Fn.typeIEND.length = 4 ∧ Fn.chunk Fn.typeIEND [] = Fn.chunk Fn.typeIEND [] :=
  ⟨rfl, rfl⟩
theorem witness_PngFile : (1 ≤ 1 ∧ 1 < 4294967296 ∧ (3 = 3 ∨ 3 = 4)) ∧
    ([0x01#8, 0x02#8, 0x03#8] : List Byte).length = 1 * 1 * 3 ∧ 4 = 1 * (1 * 3 + 1) ∧ 1 = (4 + 65534) / 65535 ∧
    15 = 6 + 4 + 5 * 1 ∧ 15 < 4294967296 := by decide +kernel

end Sys2Proof.Machine.Tests
end

section
/-! PROOFS. The REG space as the host reaches it (`20_memory.md` R51): what a host write and a host read do at each byte
offset. -/

namespace Sys2Proof.Machine

/-! ### The registers by byte offset -/

/-- What a write that issues no command leaves when it reaches byte offset `n` of the REG space (R51). -/
def storeAtOffset (n : Nat) (v : Word) (s : State) : State :=
  { s with
    width := if n = 0x08 then v else s.width
    height := if n = 0x0C then v else s.height
    channels := if n = 0x10 then v else s.channels
    srcLen := if n = 0x14 then v else s.srcLen
    ctype := if n = 0x18 then v else s.ctype }

/-- What a read of byte offset `n` of the REG space returns (R51). -/
def loadAtOffset (n : Nat) (s : State) : Word :=
  if n = 0x04 then BitVec.ofNat 32 (s.tblValid.toNat + 256 * s.errcode.toNat)
  else if n = 0x08 then s.width
  else if n = 0x0C then s.height
  else if n = 0x10 then s.channels
  else if n = 0x14 then s.srcLen
  else if n = 0x18 then s.ctype
  else if n = 0x1C then s.result
  else if n = 0x20 then s.dstLen
  else 0#32

theorem writeReg_eq_storeAtOffset (r : Reg) (v : Word) (s : State) : writeReg r v s = storeAtOffset r.offset v s := by
  cases r <;> rfl

theorem readReg_eq_loadAtOffset (r : Reg) (s : State) : readReg s r = loadAtOffset r.offset s := by
  cases r
  case status => exact status_eq s
  all_goals rfl

/-- An offset that is no register's is none of the eight at which a value can be stored or read. -/
theorem ne_of_reserved {n : Nat} (h : ∀ r : Reg, r.offset ≠ n) :
    n ≠ 0x04 ∧ n ≠ 0x08 ∧ n ≠ 0x0C ∧ n ≠ 0x10 ∧ n ≠ 0x14 ∧ n ≠ 0x18 ∧ n ≠ 0x1C ∧ n ≠ 0x20 :=
  ⟨(h .status).symm, (h .width).symm, (h .height).symm, (h .channels).symm, (h .srcLen).symm, (h .ctype).symm,
    (h .result).symm, (h .dstLen).symm⟩

/-- An offset that is no register's keeps every write out. -/
theorem storeAtOffset_of_reserved {n : Nat} (h : ∀ r : Reg, r.offset ≠ n) (v : Word) (s : State) :
    storeAtOffset n v s = s := by
  simp [storeAtOffset, ne_of_reserved h]

/-- An offset that is no register's reads 0. -/
theorem loadAtOffset_of_reserved {n : Nat} (h : ∀ r : Reg, r.offset ≠ n) (s : State) : loadAtOffset n s = 0#32 := by
  simp [loadAtOffset, ne_of_reserved h]

/-! ### The register an index reaches -/

theorem offset_of_atIndex_eq_some {k : BitVec 30} {r : Reg} (h : Reg.atIndex k = some r) : r.offset = 4 * k.toNat := by
  simpa using List.find?_some h

theorem offset_ne_of_atIndex_eq_none {k : BitVec 30} (h : Reg.atIndex k = none) (r : Reg) : r.offset ≠ 4 * k.toNat := by
  have hr : r ∈ Reg.all := by cases r <;> decide
  simpa using List.find?_eq_none.mp h r hr

/-! ### The host's accesses by byte offset -/

/-- A write of offset 0, which is CMD, issues the word (R51, R84). -/
theorem hostRegWrite_of_offset_zero {k : BitVec 30} (h : 4 * k.toNat = 0x00) (v : Word) (s : State) :
    hostRegWrite k v s = issue v s := by
  have hk : Reg.atIndex k = some .cmd := by rw [atIndex_eq, if_pos h]
  simp only [hostRegWrite, hk]

/-- A write of any other offset stores the value in the read-write register there, if there is one (R51). -/
theorem hostRegWrite_of_offset_ne_zero {k : BitVec 30} (h : 4 * k.toNat ≠ 0x00) (v : Word) (s : State) :
    hostRegWrite k v s = .next (storeAtOffset (4 * k.toNat) v s) := by
  unfold hostRegWrite
  split
  · next hk => exact absurd (offset_of_atIndex_eq_some hk).symm h
  · next r _ hk => rw [writeReg_eq_storeAtOffset, offset_of_atIndex_eq_some hk]
  · next hk => rw [storeAtOffset_of_reserved (offset_ne_of_atIndex_eq_none hk)]

theorem hostRegRead_eq_loadAtOffset (k : BitVec 30) (s : State) : hostRegRead s k = loadAtOffset (4 * k.toNat) s := by
  unfold hostRegRead
  split
  · next r hk => rw [readReg_eq_loadAtOffset, offset_of_atIndex_eq_some hk]
  · next hk => rw [loadAtOffset_of_reserved (offset_ne_of_atIndex_eq_none hk)]

/-- Settles O8, from what the head transaction does at its byte offset: a write of CMD, any other write, a read. -/
theorem registerMapAnswersHost : Obligations.RegisterMapAnswersHost := by
  refine ⟨?cmdWrite, ?otherWrite, ?read⟩
  case cmdWrite =>
    intro s k v rest hp h0
    rw [step_cons hp]
    exact hostRegWrite_of_offset_zero h0 v (s.taken rest)
  case otherWrite =>
    intro s k v rest hp h0
    rw [step_cons hp]
    exact hostRegWrite_of_offset_ne_zero h0 v (s.taken rest)
  case read =>
    intro s k rest hp
    rw [step_cons hp, transact, hostRegRead_eq_loadAtOffset]
    rfl

end Sys2Proof.Machine
end

section
/-! PROOFS. The encodings at the host's side (`30_encoding.md`): the word that names no command (R83) and the requests
of R86. -/

namespace Sys2Proof

/-! ### The fields of a command word as numbers (R80) -/

theorem toNat_rsvdField (v : Word) : (rsvdField v).toNat = v.toNat / 256 := by
  have hv := v.isLt
  rw [rsvdField, BitVec.extractLsb'_toNat, Nat.shiftRight_eq_div_pow]
  omega

theorem toNat_opcodeField (v : Word) : (opcodeField v).toNat = v.toNat % 256 := by
  simp [opcodeField, BitVec.extractLsb'_toNat]

/-! ### Only legal words decode (R83) -/

theorem opcode_bounds (i : Instr) : 1 ≤ (opcode i).toNat ∧ (opcode i).toNat ≤ 8 := by
  cases i <;> decide

/-- The opcode map read both ways: an opcode that names a command is that command's (R81). -/
theorem eq_opcode_of_decodeOpcode {op : BitVec 8} {i : Instr} (h : decodeOpcode op = .ok i) : op = opcode i := by
  unfold decodeOpcode at h
  repeat' split at h
  all_goals cases h
  all_goals assumption

/-- Everything a word that decodes is: its reserved bits are zero and its opcode is the command's. -/
theorem fields_of_decode {v : Word} {i : Instr} (h : decode v = .ok i) :
    rsvdField v = 0#24 ∧ opcodeField v = opcode i := by
  unfold decode at h
  split at h
  · next hr => exact ⟨hr, eq_opcode_of_decodeOpcode h⟩
  · cases h

theorem legal_of_decode {v : Word} {i : Instr} (h : decode v = .ok i) :
    v.toNat / 256 = 0 ∧ 1 ≤ v.toNat % 256 ∧ v.toNat % 256 ≤ 8 := by
  obtain ⟨hr, ho⟩ := fields_of_decode h
  rw [← toNat_rsvdField, ← toNat_opcodeField, hr, ho]
  exact ⟨rfl, opcode_bounds i⟩

namespace Machine

/-- A word that decodes to no command ends with IllegalCommand (R83, R84). -/
theorem issue_of_decode_error {v : Word} {e : DecodeError} (h : decode v = .error e) (s : State) :
    issue v s = .next { s with errcode := 5#4 } := by
  simp only [issue, h, raiseError_illegal]

/-- Settles O4: a word that decodes is legal, so an illegal one is rejected, whatever the reason. -/
theorem illegalWordOnlySetsErrcode : Obligations.IllegalWordOnlySetsErrcode := by
  intro s v illegal
  cases hd : decode v with
  | ok i => exact absurd (legal_of_decode hd) illegal
  | error e => exact issue_of_decode_error hd s

/-! ### The byte offset of a REG access (R51, R57) -/

theorem toNat_regOffset (k : BitVec 30) : (regOffset k).toNat = 4 * k.toNat := by
  simp only [regOffset, BitVec.toNat_append, BitVec.toNat_ofNat, Nat.shiftLeft_eq]
  simp [Nat.mul_comm]

theorem regOffset_aligned (k : BitVec 30) : (regOffset k).extractLsb' 0 2 = 0#2 := by
  apply BitVec.eq_of_toNat_eq
  simp [BitVec.extractLsb'_toNat, toNat_regOffset]

theorem index_of_regOffset (k : BitVec 30) : (regOffset k).extractLsb' 2 30 = k := by
  apply BitVec.eq_of_toNat_eq
  have hk := k.isLt
  rw [BitVec.extractLsb'_toNat, toNat_regOffset, Nat.shiftRight_eq_div_pow]
  omega

/-! ### The requests of R86 -/

/-- The data of a byte write holds the byte in bits 7:0 (R65). -/
theorem extractLsb'_setWidth_byte (b : Byte) : (b.setWidth 32).extractLsb' 0 8 = b := by
  apply BitVec.eq_of_toNat_eq
  have hb := b.isLt
  simp only [BitVec.extractLsb'_toNat, BitVec.toNat_setWidth, Nat.shiftRight_zero]
  omega

/-- The request of a transaction is read back as that transaction. -/
theorem toTransaction_of_toRequest {t : Transaction} {r : Request} (h : t.toRequest = some r) :
    r.toTransaction = some t := by
  cases t <;> cases h <;> simp [Request.toTransaction, regOffset_aligned, index_of_regOffset, extractLsb'_setWidth_byte]

/-- A write is carried by the fields of its request. -/
theorem carriedBy_of_write {t : Transaction} {space : BitVec 2} {addr data : Word} {a d : Nat}
    (h : t.toRequest = some { space := space, write := true, addr := addr, wdata := data })
    (ha : addr.toNat = a) (hd : data.toNat = d) : CarriedBy t space true a (some d) :=
  ⟨_, h, rfl, rfl, ha, fun _ e => hd.trans (Option.some.inj e), toTransaction_of_toRequest h⟩

/-- A read is carried by the fields of its request, its data read by nothing. -/
theorem carriedBy_of_read {t : Transaction} {space : BitVec 2} {addr data : Word} {a : Nat}
    (h : t.toRequest = some { space := space, write := false, addr := addr, wdata := data })
    (ha : addr.toNat = a) : CarriedBy t space false a none :=
  ⟨_, h, rfl, rfl, ha, nofun, toTransaction_of_toRequest h⟩

theorem regWrite_carriedBy (k : BitVec 30) (v : Word) :
    CarriedBy (.regWrite k v) 0#2 true (4 * k.toNat) (some v.toNat) :=
  carriedBy_of_write rfl (toNat_regOffset k) rfl

/-- Settles O15: each transaction's request has the fields of its row, and a command's line is a write of CMD. -/
theorem requestsCarryTransactions : Obligations.RequestsCarryTransactions := by
  refine ⟨regWrite_carriedBy, ?regRead, ?tblWrite, ?tblRead, ?srcWrite, ?srcRead, ?dstWrite, ?dstRead, ?command, rfl⟩
  case regRead => exact fun k => carriedBy_of_read rfl (toNat_regOffset k)
  case tblWrite => exact fun i v => carriedBy_of_write rfl rfl rfl
  case tblRead => exact fun i => carriedBy_of_read rfl rfl
  case srcWrite => exact fun a b => carriedBy_of_write rfl rfl (BitVec.toNat_setWidth_of_le (by decide))
  case srcRead => exact fun a => carriedBy_of_read rfl rfl
  case dstWrite => exact fun a b => carriedBy_of_write rfl rfl (BitVec.toNat_setWidth_of_le (by decide))
  case dstRead => exact fun a => carriedBy_of_read rfl rfl
  case command => exact fun i => regWrite_carriedBy Reg.cmd.index (encode i)

end Machine

end Sys2Proof
end

section
/-! PROOFS. The layouts of the byte sequences the functions build (`30_encoding.md` R88 to R91): the chunk frame, the
zlib container and the PNG file, each part at its offset. -/

namespace Sys2Proof

/-! ### The parts of a sequence as slices -/

/-- Offsets inside the middle part of a sequence are those of the part, moved by the length before it. -/
theorem slice_middle (a b c : List Byte) {i j k l : Nat} (hk : k = a.length + i) (hl : l = a.length + j)
    (hj : j ≤ b.length) : slice (a ++ b ++ c) k l = slice b i j := by
  subst hk hl
  rw [List.append_assoc, slice_append_right _ _ _ _ (Nat.le_add_right _ _), slice_append_left _ _ _ _ (by omega),
    Nat.add_sub_cancel_left, Nat.add_sub_cancel_left]

theorem slice_eq_middle (a b c : List Byte) {k l : Nat} (hk : k = a.length) (hl : l = k + b.length) :
    slice (a ++ b ++ c) k l = b := by
  rw [slice_middle a b c (i := 0) hk (hk ▸ hl) le_rfl, slice_all _ _ le_rfl]

theorem slice_eq_left (a b : List Byte) {l : Nat} (hl : l = a.length) : slice (a ++ b) 0 l = a := by
  rw [slice_append_left _ _ _ _ hl.le, slice_all _ _ hl.ge]

theorem slice_eq_right (a b : List Byte) {k l : Nat} (hk : k = a.length) (hl : l = k + b.length) :
    slice (a ++ b) k l = b := by
  simpa using slice_eq_middle a b [] hk hl

namespace Fn

/-! ### The chunk frame (R89) -/

theorem chunk_eq_parts (t d : List Byte) : chunk t d = be32Nat d.length ++ t ++ d ++ be32 (crc32 (t ++ d)) := rfl

theorem length_chunk (t d : List Byte) (ht : t.length = 4) : (chunk t d).length = 12 + d.length :=
  length_chunkWith crc32 t d ht

theorem slice_chunk_length (t d : List Byte) : slice (chunk t d) 0 4 = be32Nat d.length := by
  rw [chunk_eq_parts, List.append_assoc, List.append_assoc]
  exact slice_eq_left _ _ rfl

theorem slice_chunk_type (t d : List Byte) (ht : t.length = 4) : slice (chunk t d) 4 8 = t := by
  rw [chunk_eq_parts, List.append_assoc]
  exact slice_eq_middle _ _ _ rfl (by rw [ht])

/-- Offsets inside the data of a chunk, which begins at 8 in the chunk. -/
theorem slice_chunk_data (t d : List Byte) (ht : t.length = 4) {i j : Nat} (hj : j ≤ d.length) :
    slice (chunk t d) (8 + i) (8 + j) = slice d i j :=
  slice_middle (be32Nat d.length ++ t) d _ (by simp [ht]) (by simp [ht]) hj

theorem slice_chunk_all_data (t d : List Byte) (ht : t.length = 4) : slice (chunk t d) 8 (8 + d.length) = d := by
  rw [slice_chunk_data t d ht (i := 0) le_rfl, slice_all _ _ le_rfl]

theorem slice_chunk_crc (t d : List Byte) (ht : t.length = 4) :
    slice (chunk t d) (8 + d.length) (12 + d.length) = be32 (crc32 (t ++ d)) := by
  rw [chunk_eq_parts]
  exact slice_eq_right _ _ (by simp [ht]; omega) (by simp; omega)

/-- The CRC of a chunk covers the slice from its type to the end of its data. -/
theorem slice_chunk_crc_of_covered (t d : List Byte) (ht : t.length = 4) :
    slice (chunk t d) (8 + d.length) (12 + d.length) = be32 (crc32 (slice (chunk t d) 4 (8 + d.length))) := by
  rw [slice_chunk_crc t d ht, ← slice_append_slice (chunk t d) 4 8 _ (by decide) (by omega), slice_chunk_type t d ht,
    slice_chunk_all_data t d ht]

/-- Settles O45: the four parts of a chunk in order, each at the sum of the lengths before it. -/
theorem chunkFrameLayout : Obligations.ChunkFrameLayout := by
  intro t d ht _
  exact ⟨length_chunk t d ht, slice_chunk_length t d, slice_chunk_type t d ht, slice_chunk_all_data t d ht,
    slice_chunk_crc t d ht⟩

/-! ### The zlib container (R91) -/

theorem length_storedBlocks_eq (s : List Byte) :
    (storedBlocks s).length = s.length + 5 * ((s.length + 65534) / 65535) := by
  rw [length_storedBlocks, storedLength, ceilDiv_eq, blockMax]

theorem length_zlibWrap (s : List Byte) :
    (zlibWrap s).length = 6 + s.length + 5 * ((s.length + 65534) / 65535) := by
  rw [zlibWrap, length_zlibWrapWith, zlibLength, ← length_storedBlocks, length_storedBlocks_eq, Nat.add_assoc]

theorem zlibWrap_eq_parts (s : List Byte) :
    zlibWrap s = [0x78#8, 0x01#8] ++ storedBlocks s ++ be32 (adler32 s) := rfl

/-- Settles O44: the header, the stored blocks and the checksum of the input in order. -/
theorem zlibContainerLayout : Obligations.ZlibContainerLayout := by
  rintro s K - rfl
  refine ⟨length_zlibWrap s, ?header, by decide, ?blocks, ?checksum⟩ <;> rw [zlibWrap_eq_parts]
  case header =>
    rw [List.append_assoc]
    exact slice_eq_left _ _ rfl
  case blocks => exact slice_eq_middle _ _ _ rfl (by rw [length_storedBlocks_eq, Nat.add_assoc])
  case checksum => exact slice_eq_right _ _ (by simp [length_storedBlocks_eq]; omega) (by simp; omega)

/-! ### The PNG file (R88, R90) -/

/-- The signature and the three chunks, in that order (R88). -/
theorem encode_eq_parts (W H C : Nat) (p : List Byte) :
    encode W H C p = pngSig ++ chunk typeIHDR (ihdrPayload W H C) ++ chunk typeIDAT (zlibWrap (filter p W H C))
      ++ chunk typeIEND [] := rfl

theorem length_ihdrChunk (W H C : Nat) : (chunk typeIHDR (ihdrPayload W H C)).length = 25 := length_chunk _ _ rfl

theorem length_idatChunk (z : List Byte) : (chunk typeIDAT z).length = 12 + z.length := length_chunk _ _ rfl

/-- The IEND chunk is the same in every file (R90). -/
theorem iendChunk_eq : chunk typeIEND [] =
    [0x00#8, 0x00#8, 0x00#8, 0x00#8, 0x49#8, 0x45#8, 0x4E#8, 0x44#8, 0xAE#8, 0x42#8, 0x60#8, 0x82#8] := by
  decide +kernel

theorem length_before_iend (W H C : Nat) (z : List Byte) :
    (pngSig ++ chunk typeIHDR (ihdrPayload W H C) ++ chunk typeIDAT z).length = 45 + z.length := by
  rw [List.length_append, List.length_append, length_ihdrChunk, length_idatChunk]
  change 8 + 25 + (12 + z.length) = 45 + z.length
  omega

theorem length_encode (W H C : Nat) (p : List Byte) :
    (encode W H C p).length = 57 + (zlibWrap (filter p W H C)).length := by
  rw [encode_eq_parts, List.length_append, length_before_iend, length_chunk _ _ rfl]
  change 45 + _ + 12 = _
  omega

theorem slice_encode_pngSig (W H C : Nat) (p : List Byte) : slice (encode W H C p) 0 8 = pngSig := by
  rw [encode_eq_parts, List.append_assoc, List.append_assoc]
  exact slice_eq_left _ _ rfl

/-- Offsets inside the IHDR chunk, which begins at 8 in the file. -/
theorem slice_encode_ihdr (W H C : Nat) (p : List Byte) (i j : Nat) {k l : Nat} (hk : k = 8 + i) (hl : l = 8 + j)
    (hj : j ≤ 25) : slice (encode W H C p) k l = slice (chunk typeIHDR (ihdrPayload W H C)) i j := by
  rw [encode_eq_parts, List.append_assoc]
  exact slice_middle pngSig _ _ hk hl (by rwa [length_ihdrChunk])

/-- Offsets inside the IHDR payload, which begins at 16 in the file. -/
theorem slice_encode_ihdrPayload (W H C : Nat) (p : List Byte) (i j : Nat) (hj : j ≤ 13) :
    slice (encode W H C p) (16 + i) (16 + j) = slice (ihdrPayload W H C) i j := by
  rw [slice_encode_ihdr W H C p (8 + i) (8 + j) (by omega) (by omega) (by omega)]
  exact slice_chunk_data _ _ rfl hj

/-- Offsets inside the IDAT chunk, which begins at 33 in the file. -/
theorem slice_encode_idat (W H C : Nat) (p : List Byte) (i j : Nat) {k l : Nat} (hk : k = 33 + i) (hl : l = 33 + j)
    (hj : j ≤ 12 + (zlibWrap (filter p W H C)).length) :
    slice (encode W H C p) k l = slice (chunk typeIDAT (zlibWrap (filter p W H C))) i j := by
  rw [encode_eq_parts]
  exact slice_middle (pngSig ++ chunk typeIHDR (ihdrPayload W H C)) _ _ hk hl (by rwa [length_idatChunk])

/-- The IEND chunk ends the file. -/
theorem slice_encode_iend (W H C : Nat) (p : List Byte) {k l : Nat}
    (hk : k = 45 + (zlibWrap (filter p W H C)).length) (hl : l = k + 12) :
    slice (encode W H C p) k l = chunk typeIEND [] := by
  rw [encode_eq_parts]
  exact slice_eq_right _ _ (by rw [length_before_iend, hk]) hl

theorem length_idatPayload (W H C : Nat) (p : List Byte) (hp : p.length = W * H * C) :
    (zlibWrap (filter p W H C)).length = 6 + H * (W * C + 1) + 5 * ((H * (W * C + 1) + 65534) / 65535) := by
  rw [length_zlibWrap, length_filter p W H C hp, filteredLength]

/-- Settles O47: the file's offsets are those of its chunks moved by the lengths before them, and inside a chunk the
parts are those of the chunk frame. -/
theorem pngFileLayout : Obligations.PngFileLayout := by
  rintro W H C F K Z p _ - - - - - hp rfl rfl hZ - rfl
  obtain rfl := hZ.trans (length_idatPayload W H C p hp).symm
  have idat := slice_encode_idat W H C p
  refine ⟨length_encode W H C p, slice_encode_pngSig W H C p, ?ihdrHead, ?width, ?height, ?format, ?ihdrCrc,
    ?idatLength, ?idatType, ?idatData, ?idatCrc, ?iend⟩
  case ihdrHead =>
    rw [slice_encode_ihdr W H C p 0 8 rfl rfl (by decide), ← slice_append_slice _ 0 4 8 (by decide) (by decide),
      slice_chunk_length, slice_chunk_type _ _ rfl, length_ihdrPayload]
    rfl
  case width => exact slice_encode_ihdrPayload W H C p 0 4 (by decide)
  case height => exact slice_encode_ihdrPayload W H C p 4 8 (by decide)
  case format => exact slice_encode_ihdrPayload W H C p 8 13 (by decide)
  case ihdrCrc =>
    rw [slice_encode_ihdr W H C p 21 25 rfl rfl le_rfl, slice_encode_ihdr W H C p 4 21 rfl rfl (by decide)]
    exact slice_chunk_crc_of_covered typeIHDR (ihdrPayload W H C) rfl
  case idatLength => exact (idat 0 4 rfl rfl (by omega)).trans (slice_chunk_length _ _)
  case idatType => exact (idat 4 8 rfl rfl (by omega)).trans (slice_chunk_type _ _ rfl)
  case idatData => exact (idat 8 (8 + _) rfl (by omega) (by omega)).trans (slice_chunk_all_data _ _ rfl)
  case idatCrc =>
    rw [idat (8 + _) (12 + _) (Nat.add_assoc 33 8 _) (Nat.add_assoc 33 12 _) le_rfl,
      idat 4 (8 + _) rfl (Nat.add_assoc 33 8 _) (Nat.add_le_add_right (by decide) _)]
    exact slice_chunk_crc_of_covered typeIDAT _ rfl
  case iend => rw [slice_encode_iend W H C p rfl (by omega), iendChunk_eq]

end Fn

end Sys2Proof
end

section
/-! PROOFS. The Adler-32 of the engine (`40_checksum.md` R113, R114): no sum of a chunk reaches `2^32`, so the 32-bit
registers `ADL_A` and `ADL_B` hold the sums of the function over naturals, byte by byte and chunk by chunk. -/

namespace Sys2Proof

/-- No piece is longer than the piece length. -/
theorem length_le_of_mem_pieces {k : Nat} {s piece : List Byte} (h : piece ∈ pieces k s) : piece.length ≤ k := by
  obtain ⟨i, -, rfl⟩ := List.mem_map.mp h
  rw [length_slice, Nat.add_one_mul]
  omega

namespace Fn

/-! ### The size of the sums (R114 (b)) -/

theorem foldl_adlerByte_fst_le (chunk : List Byte) (a b : Nat) :
    (chunk.foldl adlerByte (a, b)).1 ≤ a + 255 * chunk.length := by
  induction chunk generalizing a b with
  | nil => simp
  | cons x rest ih =>
    have hx : x.toNat ≤ 255 := Nat.le_of_lt_succ x.isLt
    have hrest := ih (a + x.toNat) (b + (a + x.toNat))
    simp only [List.foldl_cons, List.length_cons, adlerByte]
    omega

/-- Stated of twice the second sum, so that the triangular number of the length needs no division. -/
theorem two_mul_foldl_adlerByte_snd_le (chunk : List Byte) (a b : Nat) :
    2 * (chunk.foldl adlerByte (a, b)).2 ≤
      2 * b + 2 * chunk.length * a + 255 * (chunk.length * (chunk.length + 1)) := by
  induction chunk generalizing a b with
  | nil => simp
  | cons x rest ih =>
    have hx : x.toNat ≤ 255 := Nat.le_of_lt_succ x.isLt
    have hrest := ih (a + x.toNat) (b + (a + x.toNat))
    simp only [List.foldl_cons, List.length_cons, adlerByte]
    nlinarith

/-- Both sums are below the modulus, as every chunk leaves them (R113). -/
def ReducedSums (ab : Nat × Nat) : Prop := ab.1 < adlerMod ∧ ab.2 < adlerMod

theorem reducedSums_adlerChunk (ab : Nat × Nat) (chunk : List Byte) : ReducedSums (adlerChunk ab chunk) :=
  ⟨Nat.mod_lt _ (by decide), Nat.mod_lt _ (by decide)⟩

/-- The sums of a chunk of at most `ADLER_CHUNK` bytes stay below `2^32` (R114 (b)). -/
theorem foldl_adlerByte_lt {ab : Nat × Nat} (hab : ReducedSums ab) {chunk : List Byte}
    (hc : chunk.length ≤ adlerChunkLen) :
    (chunk.foldl adlerByte ab).1 < 2 ^ 32 ∧ (chunk.foldl adlerByte ab).2 < 2 ^ 32 := by
  obtain ⟨a, b⟩ := ab
  obtain ⟨ha : a < 65521, hb : b < 65521⟩ := hab
  replace hc : chunk.length ≤ 3800 := hc
  have hfst := foldl_adlerByte_fst_le chunk a b
  have hsnd := two_mul_foldl_adlerByte_snd_le chunk a b
  have hmul : chunk.length * a ≤ 3800 * 65520 := Nat.mul_le_mul hc (by omega)
  have hsq : chunk.length * (chunk.length + 1) ≤ 3800 * 3801 := Nat.mul_le_mul hc (by omega)
  rw [Nat.mul_assoc] at hsnd
  constructor <;> omega

end Fn

namespace Machine

/-! ### The 32-bit registers hold the sums -/

/-- `ADL_A` and `ADL_B` with two naturals in them, modulo `2^32` (R29). -/
def AdlerRegs.ofSums (ab : Nat × Nat) : AdlerRegs := { a := BitVec.ofNat 32 ab.1, b := BitVec.ofNat 32 ab.2 }

/-- One byte commutes with the registers' wrap, whatever they hold. -/
theorem adlByte_ofSums (ab : Nat × Nat) (x : Byte) :
    adlByte (.ofSums ab) x = .ofSums (Fn.adlerByte ab x) := by
  simp only [adlByte, AdlerRegs.ofSums, Fn.adlerByte, BitVec.ofNat_add, BitVec.ofNat_toNat]

theorem foldl_adlByte_ofSums (chunk : List Byte) (ab : Nat × Nat) :
    chunk.foldl adlByte (.ofSums ab) = .ofSums (chunk.foldl Fn.adlerByte ab) :=
  List.foldl_hom AdlerRegs.ofSums adlByte_ofSums

/-- The reduction of a register that holds its sum unwrapped. -/
theorem ofNat_umod_adlerMod {n : Nat} (h : n < 2 ^ 32) :
    BitVec.ofNat 32 n % 65521#32 = BitVec.ofNat 32 (n % Fn.adlerMod) := by
  apply BitVec.eq_of_toNat_eq
  have hr : n % Fn.adlerMod < 2 ^ 32 := (Nat.mod_le _ _).trans_lt h
  simp only [BitVec.toNat_umod, BitVec.toNat_ofNat, Nat.mod_eq_of_lt h, Nat.mod_eq_of_lt hr]
  rfl

/-- One chunk from reduced sums: nothing wraps before the reduction (R114 (b)). -/
theorem adlChunk_ofSums {ab : Nat × Nat} (hab : Fn.ReducedSums ab) {chunk : List Byte}
    (hc : chunk.length ≤ Fn.adlerChunkLen) : adlChunk (.ofSums ab) chunk = .ofSums (Fn.adlerChunk ab chunk) := by
  obtain ⟨hfst, hsnd⟩ := Fn.foldl_adlerByte_lt hab hc
  rw [adlChunk, foldl_adlByte_ofSums]
  simp only [AdlerRegs.ofSums, ofNat_umod_adlerMod hfst, ofNat_umod_adlerMod hsnd, Fn.adlerChunk]

theorem foldl_adlChunk_ofSums (chunks : List (List Byte)) {ab : Nat × Nat} (hab : Fn.ReducedSums ab)
    (hc : ∀ chunk ∈ chunks, chunk.length ≤ Fn.adlerChunkLen) :
    chunks.foldl adlChunk (.ofSums ab) = .ofSums (chunks.foldl Fn.adlerChunk ab) := by
  induction chunks generalizing ab with
  | nil => rfl
  | cons chunk rest ih =>
    rw [List.forall_mem_cons] at hc
    rw [List.foldl_cons, List.foldl_cons, adlChunk_ofSums hab hc.1]
    exact ih (Fn.reducedSums_adlerChunk ab chunk) hc.2

/-- `(b << 16) | a` in 32 bits is that of the sums. -/
theorem shiftLeft_or_ofSums (ab : Nat × Nat) :
    ((AdlerRegs.ofSums ab).b <<< 16) ||| (AdlerRegs.ofSums ab).a = BitVec.ofNat 32 ((ab.2 <<< 16) ||| ab.1) := by
  have hshift : BitVec.ofNat 32 ab.2 <<< 16 = BitVec.ofNat 32 (ab.2 <<< 16) := by
    apply BitVec.eq_of_toNat_eq
    simp [Nat.shiftLeft_eq]
  simp only [AdlerRegs.ofSums, hshift, BitVec.ofNat_or]

/-- The engine's Adler-32 is the function's, for every byte sequence (R113, R29). -/
theorem adlerEngine_eq_adler32 (bytes : List Byte) : adlerEngine bytes = Fn.adler32 bytes := by
  have hfold : (pieces Fn.adlerChunkLen bytes).foldl adlChunk { a := 1#32, b := 0#32 } =
      .ofSums ((pieces Fn.adlerChunkLen bytes).foldl Fn.adlerChunk (1, 0)) :=
    foldl_adlChunk_ofSums _ (ab := (1, 0)) ⟨by decide, by decide⟩ fun _ => length_le_of_mem_pieces
  simp only [adlerEngine, hfold, shiftLeft_or_ofSums, Fn.adler32]

end Machine

end Sys2Proof
end

section
/-! PROOFS. The commands of the ChecksumEngine (`40_checksum.md` R115, R117, R118): each ends in its success state, or
in AllocationFailure when the operand exceeds SRC. -/

namespace Sys2Proof.Machine

/-! ### How a command ends, by what its checks report -/

theorem exec_of_no_error {i : Instr} {s : State} (h : commandError i s = none) :
    exec i s = .next (complete (commandSuccess i s)) := by
  rw [exec_eq_finish, h, finish_none]

theorem exec_of_error {i : Instr} {s : State} {e : ErrorKind} (h : commandError i s = some e) :
    exec i s = .next (raiseError (some i) e s) := by
  rw [exec_eq_finish, h, finish_some]

theorem sourceError_of_fits {s : State} (h : s.srcLen.toNat ≤ s.params.srcCap) : sourceError s = none :=
  if_neg (Nat.not_lt.mpr h)

theorem sourceError_of_too_long {s : State} (h : s.params.srcCap < s.srcLen.toNat) :
    sourceError s = some .allocationFailure := if_pos h

/-- CRC32 and ADLER32 on an operand that exceeds SRC: code 4 and nothing else (R193). -/
theorem exec_of_source_too_long {i : Instr} {s : State} (hcheck : commandError i s = sourceError s)
    (hdst : writesDst i = false) (h : s.params.srcCap < s.srcLen.toNat) :
    exec i s = .next { s with errcode := 4#4 } := by
  rw [exec_of_error (hcheck.trans (sourceError_of_too_long h)), raiseError_of_not_writesDst i _ s hdst]
  rfl

/-! ### The table after a command -/

/-- `ensure_table` changes TBL and its flag only (R116). -/
theorem ensureTable_eq (s : State) : ensureTable s = { s with tblValid := true, tbl := (ensureTable s).tbl } := by
  cases hv : s.tblValid with
  | false => simp [ensureTable, hv, buildTable]
  | true => rw [ensureTable_of_valid s hv, ← hv]

theorem tableBuilt_complete {s : State} : TableBuilt (complete s) ↔ TableBuilt s := Iff.rfl

theorem tableBuilt_setResult {v : Word} {s : State} : TableBuilt (setResult v s) ↔ TableBuilt s := Iff.rfl

/-! ### The commands -/

/-- Settles O29: `ensure_table` leaves a built table, through which the engine's CRC is the function's. -/
theorem crc32ComputesChecksum : Obligations.Crc32ComputesChecksum := by
  refine ⟨rfl, ?fits, fun s => exec_of_source_too_long rfl rfl⟩
  case fits =>
    intro s hok hfits
    have hbuilt : TableBuilt (ensureTable s) := ensureTable_built s hok
    refine ⟨_, exec_of_no_error (i := .crc32) (sourceError_of_fits hfits), ?state, ?table, ?kept⟩
    case state =>
      simp only [commandSuccess, crcEngine_eq_crc32 _ hbuilt]
      rw [ensureTable_eq s]
      rfl
    case table => exact tableBuilt_complete.mpr (tableBuilt_setResult.mpr hbuilt)
    case kept =>
      intro hv
      simp [commandSuccess, hv]

/-- Settles O30: the engine's Adler-32 is the function's. -/
theorem adler32ComputesChecksum : Obligations.Adler32ComputesChecksum := by
  refine ⟨rfl, ?fits, fun s => exec_of_source_too_long rfl rfl⟩
  case fits =>
    intro s hfits
    rw [exec_of_no_error (i := .adler32) (sourceError_of_fits hfits), commandSuccess, adlerEngine_eq_adler32]
    rfl

/-- Settles O28: TBLINIT has no check, and its success state is that of `ensure_table`. -/
theorem tblinitBuildsTable : Obligations.TblinitBuildsTable := by
  refine ⟨rfl, fun s => ⟨_, exec_of_no_error rfl, ?state, ?kept, ?entries⟩⟩
  case state =>
    rw [commandSuccess, ensureTable_eq s]
    rfl
  case kept =>
    intro hv
    simp [commandSuccess, hv]
  case entries =>
    intro hv
    have hok : TableOk s := fun h => absurd h (by simp [hv])
    exact (tableBuilt_complete.mpr (ensureTable_built s hok)).2

end Sys2Proof.Machine
end

section
/-! PROOFS. The commands that write DST, by the code their checks report (R192, R193), and FILTER (`41_filter.md` R131):
with code 0 it leaves the filtered bitmap, with any other code no output. -/

namespace Sys2Proof.Machine

/-! ### The code of a command's checks (R190, R192) -/

/-- The code of the error the checks report, 0 for none. -/
def reportedCode (error : Option ErrorKind) : BitVec 4 := error.elim 0#4 ErrorKind.code

theorem reportedCode_eq_zero_iff {error : Option ErrorKind} : reportedCode error = 0#4 ↔ error = none := by
  cases error with
  | none => simp [reportedCode]
  | some e => simp [reportedCode, code_ne_zero e]

/-- A check that comes first hides the code of those after it. -/
theorem reportedCode_check (p : Prop) [Decidable p] (e : ErrorKind) (later : Option ErrorKind) :
    reportedCode (if p then some e else later) = if p then e.code else reportedCode later := by
  split <;> rfl

/-- A check of an earlier group hides the code of every later group. -/
theorem reportedCode_check_or (p : Prop) [Decidable p] (e : ErrorKind) (later others : Option ErrorKind) :
    reportedCode ((if p then some e else later).or others) =
      if p then e.code else reportedCode (later.or others) := by
  split <;> rfl

/-- The checks of FILTER and ENCODE report the code of R192's order. -/
theorem reportedCode_imageChecks (n : Nat) (s : State) :
    reportedCode ((imageError s).or ((sourceError s).or (outputError n s))) =
      imageCode s.width.toNat s.height.toNat s.channels.toNat s.srcLen.toNat n s.params.srcCap s.params.dstCap := by
  simp only [imageError, Fn.validateImage, sourceError, outputError, reportedCode_check_or, reportedCode_check,
    Option.none_or, imageCode, not_or]
  rfl

/-- An image that passes validation and fits both memories has code 0. -/
theorem imageCode_of_valid {W H C L n srcCap dstCap : Nat} (hW : W ≠ 0) (hH : H ≠ 0) (hC : C = 3 ∨ C = 4)
    (hL : L = W * H * C) (hsrc : L ≤ srcCap) (hdst : n ≤ dstCap) : imageCode W H C L n srcCap dstCap = 0#4 := by
  rw [imageCode, if_neg (not_or.mpr ⟨hW, hH⟩), if_neg (not_not.mpr hC), if_neg (not_not.mpr hL),
    if_neg (Nat.not_lt.mpr hsrc), if_neg (Nat.not_lt.mpr hdst)]

/-! ### How a DST-writing command ends -/

theorem exec_of_code_zero {i : Instr} {s : State} (h : reportedCode (commandError i s) = 0#4) :
    exec i s = .next (complete (commandSuccess i s)) :=
  exec_of_no_error (reportedCode_eq_zero_iff.mp h)

/-- With any other code there is no output (R193). -/
theorem exec_outputLost {i : Instr} {s : State} (hi : writesDst i = true)
    (h : reportedCode (commandError i s) ≠ 0#4) :
    ∃ t, exec i s = .next t ∧ OutputLost (reportedCode (commandError i s)) s t := by
  cases he : commandError i s with
  | none => exact absurd (reportedCode_eq_zero_iff.mpr he) h
  | some e => exact ⟨_, exec_of_error he, raiseError_outputLost i e s hi⟩

/-- A successful command changes DST, `DST_LEN` and ERRCODE only. -/
theorem complete_putOutput_eq (n : Nat) (out : List Byte) (s : State) :
    complete (putOutput n out s) =
      { s with
        dst := (complete (putOutput n out s)).dst
        dstLen := (complete (putOutput n out s)).dstLen
        draws := (complete (putOutput n out s)).draws
        errcode := 0#4 } := rfl

theorem dstCap_lt_of_wellFormed {p : Params} (h : p.wellFormed = true) : p.dstCap < 2 ^ 32 := by
  simp only [Params.wellFormed, Bool.and_eq_true, decide_eq_true_eq] at h
  omega

/-- `DST_LEN` holds the length of every output that fits DST (R25, R5). -/
theorem toNat_dstLen_complete_putOutput {n : Nat} {s : State} (out : List Byte) (hp : s.params.wellFormed = true)
    (hn : n ≤ s.params.dstCap) : (complete (putOutput n out s)).dstLen.toNat = n := by
  rw [complete_dstLen, putOutput_dstLen, BitVec.toNat_ofNat]
  exact Nat.mod_eq_of_lt (hn.trans_lt (dstCap_lt_of_wellFormed hp))

theorem dstBytes_complete_putOutput {n : Nat} {out : List Byte} (h : out.length = n) (s : State) :
    dstBytes (complete (putOutput n out s)) n = out := by
  rw [dstBytes_of_cells _ out n rfl h.ge, List.take_of_length_le h.le]

/-! ### FILTER -/

theorem reportedCode_filter (s : State) :
    reportedCode (commandError .filter s) =
      imageCode s.width.toNat s.height.toNat s.channels.toNat s.srcLen.toNat
        (s.height.toNat * (s.width.toNat * s.channels.toNat + 1)) s.params.srcCap s.params.dstCap :=
  reportedCode_imageChecks (filterOutLen s) s

/-- Settles O31: the code of the checks decides between the filtered bitmap and no output. -/
theorem filterWritesFilteredBitmap : Obligations.FilterWritesFilteredBitmap := by
  refine ⟨rfl, ?bitmap, ?error⟩
  case bitmap =>
    rintro s W H C L F hp rfl rfl rfl rfl rfl hW hH hC hL hsrc hdst
    have hcode : reportedCode (commandError .filter s) = 0#4 :=
      (reportedCode_filter s).trans (imageCode_of_valid hW hH hC hL hsrc hdst)
    have hlen : (Fn.filter (opSrc s) (opW s) (opH s) (opC s)).length = filterOutLen s :=
      Fn.length_filter _ _ _ _ ((length_opSrc s).trans hL)
    exact ⟨_, exec_of_code_zero hcode, complete_putOutput_eq _ _ s, toNat_dstLen_complete_putOutput _ hp hdst,
      dstBytes_complete_putOutput hlen s⟩
  case error =>
    rintro s code rfl hcode
    rw [← reportedCode_filter] at hcode ⊢
    exact exec_outputLost rfl hcode

end Sys2Proof.Machine
end

section
/-! PROOFS. The spans of a byte sequence (`42_deflate_zlib.md` R140): the pieces of `BLOCK_MAX` bytes, of which only the
last can be shorter. -/

namespace Sys2Proof.Fn

/-- The number of spans (R140). -/
theorem length_spans (s : List Byte) : (spans s).length = (s.length + 65534) / 65535 := by
  rw [spans, length_pieces, ceilDiv_eq, blockMax]

/-- A span is the slice its index names. -/
theorem span_eq_slice {s span : List Byte} {i : Nat} (h : (spans s)[i]? = some span) :
    span = slice s (i * 65535) (min ((i + 1) * 65535) s.length) := by
  obtain ⟨hi, -⟩ := List.getElem?_eq_some_iff.mp h
  rw [spans, length_pieces] at hi
  exact Option.some.inj (h.symm.trans (getElem?_pieces blockMax s i hi))

/-- A span reaches to the end of its 65535 bytes, or to the end of the sequence. -/
theorem length_span {s span : List Byte} {i : Nat} (h : (spans s)[i]? = some span) :
    span.length = min 65535 (s.length - i * 65535) := by
  rw [span_eq_slice h, length_slice]
  omega

/-- Settles O42: a span's length is that of its slice, and every index but the last leaves 65535 bytes or more. -/
theorem spansPartitionInput : Obligations.SpansPartitionInput := by
  intro s hs
  have hpos : 0 < s.length := List.length_pos_iff.mpr hs
  refine ⟨flatten_pieces blockMax s (by decide), length_spans s, fun i span h => ⟨span_eq_slice h, ?full, ?last⟩⟩ <;>
    rw [length_span h, length_spans]
  case full => omega
  case last => omega

end Sys2Proof.Fn
end

section
/-! PROOFS. STORE and ZPACK (`42_deflate_zlib.md` R145, R146): with code 0 they leave the stored-block stream and the
zlib stream, with any other code no output. -/

namespace Sys2Proof.Machine

/-! ### The code of the checks and the output lengths -/

/-- The checks of STORE and ZPACK report the code of R192's order. -/
theorem reportedCode_packError (n : Nat) (s : State) :
    reportedCode (packError n s) = packCode s.srcLen.toNat n s.params.srcCap s.params.dstCap := by
  simp only [packError, emptyError, sourceError, outputError, reportedCode_check_or, reportedCode_check,
    Option.none_or, packCode]
  rfl

/-- A non-empty operand that fits both memories has code 0. -/
theorem packCode_of_fits {L n srcCap dstCap : Nat} (hL : L ≠ 0) (hsrc : L ≤ srcCap) (hdst : n ≤ dstCap) :
    packCode L n srcCap dstCap = 0#4 := by
  rw [packCode, if_neg hL, if_neg (Nat.not_lt.mpr hsrc), if_neg (Nat.not_lt.mpr hdst)]

theorem storeOutLen_eq (s : State) :
    storeOutLen s = s.srcLen.toNat + 5 * ((s.srcLen.toNat + 65534) / 65535) := by
  rw [storeOutLen, Fn.storedLength, ceilDiv_eq, opL, Fn.blockMax]

theorem zpackOutLen_eq (s : State) :
    zpackOutLen s = 6 + s.srcLen.toNat + 5 * ((s.srcLen.toNat + 65534) / 65535) := by
  rw [Nat.add_assoc, ← storeOutLen_eq]
  rfl

/-! ### The commands -/

theorem commandSuccess_store (s : State) :
    commandSuccess .store s = putOutput (storeOutLen s) (Fn.storedBlocks (opSrc s)) s := rfl

/-- The engine's Adler-32 is the function's, so the stream is that of R143. -/
theorem commandSuccess_zpack (s : State) :
    commandSuccess .zpack s = putOutput (zpackOutLen s) (Fn.zlibWrap (opSrc s)) s := by
  rw [commandSuccess, funext adlerEngine_eq_adler32, Fn.zlibWrap]

theorem length_storedBlocks_opSrc (s : State) : (Fn.storedBlocks (opSrc s)).length = storeOutLen s := by
  rw [Fn.length_storedBlocks, length_opSrc, storeOutLen, opL]

theorem length_zlibWrap_opSrc (s : State) : (Fn.zlibWrap (opSrc s)).length = zpackOutLen s := by
  rw [Fn.zlibWrap, Fn.length_zlibWrapWith, length_opSrc, zpackOutLen, opL]

section
variable {i : Instr} {s : State} {n : Nat} {out : List Byte}

/-- A command with the checks of STORE and ZPACK, on an operand that passes them: its output is in DST and nothing else
changes. -/
theorem exec_pack_of_fits (hcheck : commandError i s = packError n s)
    (hsuccess : commandSuccess i s = putOutput n out s) (hlen : out.length = n) (hp : s.params.wellFormed = true)
    (hL : s.srcLen.toNat ≠ 0) (hsrc : s.srcLen.toNat ≤ s.params.srcCap) (hdst : n ≤ s.params.dstCap) :
    ∃ t, exec i s = .next t ∧
      t = { s with dst := t.dst, dstLen := t.dstLen, draws := t.draws, errcode := 0#4 } ∧
      t.dstLen.toNat = n ∧ dstBytes t n = out := by
  have hcode : reportedCode (commandError i s) = 0#4 := by
    rw [hcheck, reportedCode_packError, packCode_of_fits hL hsrc hdst]
  exact ⟨_, hsuccess ▸ exec_of_code_zero hcode, complete_putOutput_eq n out s,
    toNat_dstLen_complete_putOutput out hp hdst, dstBytes_complete_putOutput hlen s⟩

/-- The same command on any other operand: no output. -/
theorem exec_pack_outputLost (hi : writesDst i = true) (hcheck : commandError i s = packError n s)
    (hcode : packCode s.srcLen.toNat n s.params.srcCap s.params.dstCap ≠ 0#4) :
    ∃ t, exec i s = .next t ∧
      OutputLost (packCode s.srcLen.toNat n s.params.srcCap s.params.dstCap) s t := by
  rw [← reportedCode_packError, ← hcheck] at hcode ⊢
  exact exec_outputLost hi hcode

end

/-- Settles O32: the code of the checks decides between the stored-block stream and no output. -/
theorem storeWritesStoredBlocks : Obligations.StoreWritesStoredBlocks := by
  refine ⟨rfl, ?stream, ?error⟩
  case stream =>
    rintro s L N hp rfl rfl hL hsrc hdst
    rw [← storeOutLen_eq] at hdst ⊢
    exact exec_pack_of_fits rfl (commandSuccess_store s) (length_storedBlocks_opSrc s) hp hL hsrc hdst
  case error =>
    rintro s code rfl hcode
    rw [← storeOutLen_eq] at hcode ⊢
    exact exec_pack_outputLost rfl rfl hcode

/-- Settles O33: the code of the checks decides between the zlib stream and no output. -/
theorem zpackWritesZlibStream : Obligations.ZpackWritesZlibStream := by
  refine ⟨rfl, ?stream, ?error⟩
  case stream =>
    rintro s L N hp rfl rfl hL hsrc hdst
    rw [← zpackOutLen_eq] at hdst ⊢
    exact exec_pack_of_fits rfl (commandSuccess_zpack s) (length_zlibWrap_opSrc s) hp hL hsrc hdst
  case error =>
    rintro s code rfl hcode
    rw [← zpackOutLen_eq] at hcode ⊢
    exact exec_pack_outputLost rfl rfl hcode

end Sys2Proof.Machine
end

section
/-! PROOFS. The commands that write DST through the table, and CHUNK (`43_chunk.md` R161): with code 0 it leaves the
chunk of its type and data and the table built, with any other code no output. -/

namespace Sys2Proof.Machine

/-! ### How a command that builds the table and writes DST completes -/

theorem tableBuilt_putOutput {n : Nat} {out : List Byte} {s : State} :
    TableBuilt (putOutput n out s) ↔ TableBuilt s := Iff.rfl

/-- Such a command changes DST, `DST_LEN`, ERRCODE, TBL and its flag only. -/
theorem complete_putOutput_ensureTable_eq (n : Nat) (out : List Byte) (s : State) :
    complete (putOutput n out (ensureTable s)) =
      { s with
        dst := (complete (putOutput n out (ensureTable s))).dst
        dstLen := (complete (putOutput n out (ensureTable s))).dstLen
        draws := (complete (putOutput n out (ensureTable s))).draws
        errcode := 0#4
        tblValid := true
        tbl := (complete (putOutput n out (ensureTable s))).tbl } := by
  rw [ensureTable_eq s]
  rfl

/-- With code 0 its output is in DST, the table is built, a table already built is kept, and nothing else changes. -/
theorem exec_tableOutput_of_code_zero {i : Instr} {s : State} {n : Nat} {out : List Byte}
    (hcode : reportedCode (commandError i s) = 0#4) (hsuccess : commandSuccess i s = putOutput n out (ensureTable s))
    (hlen : out.length = n) (hok : TableOk s) (hp : s.params.wellFormed = true) (hdst : n ≤ s.params.dstCap) :
    ∃ t, exec i s = .next t ∧
      t = { s with
        dst := t.dst, dstLen := t.dstLen, draws := t.draws, errcode := 0#4, tblValid := true, tbl := t.tbl } ∧
      TableBuilt t ∧ (s.tblValid = true → t.tbl = s.tbl) ∧ t.dstLen.toNat = n ∧ dstBytes t n = out := by
  refine ⟨_, hsuccess ▸ exec_of_code_zero hcode, complete_putOutput_ensureTable_eq n out s, ?built, ?kept, ?length,
    dstBytes_complete_putOutput hlen _⟩
  case built => exact tableBuilt_complete.mpr (tableBuilt_putOutput.mpr (ensureTable_built s hok))
  case kept =>
    intro hv
    rw [ensureTable_of_valid s hv, complete_tbl, putOutput_tbl]
  case length =>
    rw [← ensureTable_params s] at hp hdst
    exact toNat_dstLen_complete_putOutput out hp hdst

/-! ### CHUNK -/

theorem chunkOutLen_eq (s : State) : chunkOutLen s = 12 + s.srcLen.toNat := rfl

/-- The checks of CHUNK report the code of R192's order. -/
theorem reportedCode_chunk (s : State) :
    reportedCode (commandError .chunk s) =
      chunkCode s.srcLen.toNat (12 + s.srcLen.toNat) s.params.srcCap s.params.dstCap := by
  simp only [commandError, chunkError, sourceError, outputError, reportedCode_check_or, reportedCode_check,
    Option.none_or, chunkCode]
  rfl

/-- An operand that fits both memories has code 0. -/
theorem chunkCode_of_fits {L n srcCap dstCap : Nat} (hsrc : L ≤ srcCap) (hdst : n ≤ dstCap) :
    chunkCode L n srcCap dstCap = 0#4 := by
  rw [chunkCode, if_neg (Nat.not_lt.mpr hsrc), if_neg (Nat.not_lt.mpr hdst)]

/-- Through a right table the engine's CRC-32 is the function's, so the output is the chunk of R160. -/
theorem commandSuccess_chunk {s : State} (hok : TableOk s) :
    commandSuccess .chunk s = putOutput (chunkOutLen s) (Fn.chunk (opType s) (opSrc s)) (ensureTable s) := by
  rw [commandSuccess, crcEngine_eq_crc32 _ (ensureTable_built s hok), Fn.chunk]

theorem length_chunk_opSrc (s : State) : (Fn.chunk (opType s) (opSrc s)).length = chunkOutLen s := by
  rw [Fn.length_chunk (opType s) _ (length_be32 s.ctype), length_opSrc, chunkOutLen_eq]

/-- Settles O34: the code of the checks decides between the chunk, with the table built, and no output. -/
theorem chunkWritesFramedData : Obligations.ChunkWritesFramedData := by
  refine ⟨rfl, ?chunk, ?error⟩
  case chunk =>
    rintro s L hok hp rfl hsrc hdst
    have hcode : reportedCode (commandError .chunk s) = 0#4 :=
      (reportedCode_chunk s).trans (chunkCode_of_fits hsrc hdst)
    exact exec_tableOutput_of_code_zero hcode (commandSuccess_chunk hok) (length_chunk_opSrc s) hok hp hdst
  case error =>
    rintro s code rfl hcode
    rw [← reportedCode_chunk] at hcode ⊢
    exact exec_outputLost rfl hcode

end Sys2Proof.Machine
end

section
/-! PROOFS. ENCODE (`44_encode.md` R174): with code 0 it leaves the PNG file of the image in SRC and the table built,
with any other code no output. -/

namespace Sys2Proof.Machine

theorem encodeOutLen_eq (s : State) :
    encodeOutLen s = 63 + s.height.toNat * (s.width.toNat * s.channels.toNat + 1)
      + 5 * ((s.height.toNat * (s.width.toNat * s.channels.toNat + 1) + 65534) / 65535) := by
  rw [encodeOutLen, Fn.encodedLength, Fn.storedLength, ceilDiv_eq, ← Nat.add_assoc]
  rfl

/-- The checks of ENCODE report the code of R192's order. -/
theorem reportedCode_encode (s : State) :
    reportedCode (commandError .encode s) =
      imageCode s.width.toNat s.height.toNat s.channels.toNat s.srcLen.toNat (encodeOutLen s)
        s.params.srcCap s.params.dstCap :=
  reportedCode_imageChecks (encodeOutLen s) s

/-- Through a right table the engine's two checksums are the functions', so the output is the PNG file of R172. -/
theorem commandSuccess_encode {s : State} (hok : TableOk s) :
    commandSuccess .encode s =
      putOutput (encodeOutLen s) (Fn.encode (opW s) (opH s) (opC s) (opSrc s)) (ensureTable s) := by
  rw [commandSuccess, crcEngine_eq_crc32 _ (ensureTable_built s hok), funext adlerEngine_eq_adler32, Fn.encode]

theorem length_encode_opSrc {s : State} (hL : opL s = opW s * opH s * opC s) :
    (Fn.encode (opW s) (opH s) (opC s) (opSrc s)).length = encodeOutLen s :=
  Fn.length_encodeWith _ _ _ _ _ _ ((length_opSrc s).trans hL)

/-- Settles O35: the code of the checks decides between the PNG file, with the table built, and no output. -/
theorem encodeWritesPngFile : Obligations.EncodeWritesPngFile := by
  refine ⟨rfl, ?file, ?error⟩
  case file =>
    rintro s W H C L F N hok hp rfl rfl rfl rfl rfl rfl hW hH hC hL hsrc hdst
    rw [← encodeOutLen_eq] at hdst ⊢
    have hcode : reportedCode (commandError .encode s) = 0#4 :=
      (reportedCode_encode s).trans (imageCode_of_valid hW hH hC hL hsrc hdst)
    exact exec_tableOutput_of_code_zero hcode (commandSuccess_encode hok) (length_encode_opSrc hL) hok hp hdst
  case error =>
    rintro s code rfl hcode
    rw [← encodeOutLen_eq, ← reportedCode_encode] at hcode ⊢
    exact exec_outputLost rfl hcode

end Sys2Proof.Machine
end

section
/-! PROOFS. What a command leaves is a function of the operands it reads (`44_encode.md` R175, `30_encoding.md` R82):
its checks, its output and its checksum are the same in two states that agree on them. -/

namespace Sys2Proof.Machine

theorem writesDst_iff (i : Instr) :
    writesDst i = true ↔ i = .filter ∨ i = .store ∨ i = .zpack ∨ i = .chunk ∨ i = .encode := by
  cases i <;> decide

/-- The image whose registers pass validation has `W*H*C` source bytes (R192). -/
theorem opL_eq_of_imageError {s : State} (h : imageError s = none) : opL s = opW s * opH s * opC s := by
  unfold imageError Fn.validateImage at h
  split_ifs at h with _ _ hL
  exact not_not.mp hL

/-- The bytes below `DST_LEN` are first bytes of the output, even of one whose length does not fit the register. -/
theorem dstBytes_complete_putOutput_dstLen {n : Nat} {out : List Byte} (h : out.length = n) (s : State) :
    dstBytes (complete (putOutput n out s)) (complete (putOutput n out s)).dstLen.toNat =
      out.take (BitVec.ofNat 32 n).toNat := by
  refine dstBytes_of_cells _ out _ rfl ?_
  rw [h, complete_dstLen, putOutput_dstLen, BitVec.toNat_ofNat]
  exact Nat.mod_le n _

section
variable {i : Instr} {s u : State}

/-! ### The operands of two states that agree on them -/

theorem SameOperands.params_eq (h : SameOperands i s u) : s.params = u.params := h.1

theorem SameOperands.image_eq (h : SameOperands i s u) (hi : i = .filter ∨ i = .encode) :
    opW s = opW u ∧ opH s = opH u ∧ opC s = opC u := by
  obtain ⟨-, himage, -, -⟩ := h
  obtain ⟨hW, hH, hC⟩ := himage hi
  exact ⟨congrArg BitVec.toNat hW, congrArg BitVec.toNat hH, congrArg BitVec.toNat hC⟩

theorem SameOperands.type_eq (h : SameOperands i s u) (hi : i = .chunk) : opType s = opType u := by
  obtain ⟨-, -, htype, -⟩ := h
  exact congrArg be32 (htype hi)

theorem SameOperands.source_eq (h : SameOperands i s u) (hi : i ≠ .tblinit) :
    opL s = opL u ∧ opSrc s = opSrc u := by
  obtain ⟨-, -, -, hsource⟩ := h
  obtain ⟨hlen, hbytes⟩ := hsource hi
  have hL : opL s = opL u := congrArg BitVec.toNat hlen
  refine ⟨hL, ?_⟩
  rw [opSrc, opSrc, ← hL]
  exact List.map_congr_left fun a ha => hbytes a (List.mem_range.mp ha)

/-! ### What a command does with them -/

theorem SameOperands.sourceError_eq (h : SameOperands i s u) (hi : i ≠ .tblinit) : sourceError s = sourceError u := by
  rw [sourceError, sourceError, (h.source_eq hi).1, h.params_eq]

theorem SameOperands.outputError_eq (h : SameOperands i s u) (n : Nat) : outputError n s = outputError n u := by
  rw [outputError, outputError, h.params_eq]

/-- The checks of FILTER and ENCODE, for an output of `n` bytes. -/
theorem SameOperands.imageChecks_eq (h : SameOperands i s u) (hi : i = .filter ∨ i = .encode) (n : Nat) :
    (imageError s).or ((sourceError s).or (outputError n s)) =
      (imageError u).or ((sourceError u).or (outputError n u)) := by
  have hne : i ≠ .tblinit := by rcases hi with rfl | rfl <;> decide
  obtain ⟨hL, -⟩ := h.source_eq hne
  obtain ⟨hW, hH, hC⟩ := h.image_eq hi
  rw [imageError, imageError, hW, hH, hC, hL, h.sourceError_eq hne, h.outputError_eq]

/-- The checks of STORE and ZPACK, for an output of `n` bytes. -/
theorem SameOperands.packError_eq (h : SameOperands i s u) (hi : i ≠ .tblinit) (n : Nat) :
    packError n s = packError n u := by
  rw [packError, packError, emptyError, emptyError, (h.source_eq hi).1, h.sourceError_eq hi, h.outputError_eq]

/-- The checks read the capacities and the operand registers only (R194). -/
theorem SameOperands.commandError_eq (h : SameOperands i s u) : commandError i s = commandError i u := by
  cases i
  case tblinit => rfl
  case crc32 | adler32 => exact h.sourceError_eq nofun
  case filter =>
    obtain ⟨hW, hH, hC⟩ := h.image_eq (.inl rfl)
    have hlen : filterOutLen s = filterOutLen u := by rw [filterOutLen, filterOutLen, hW, hH, hC]
    rw [commandError, filterError, h.imageChecks_eq (.inl rfl), hlen]
    rfl
  case store =>
    rw [commandError, h.packError_eq nofun, storeOutLen, (h.source_eq nofun).1]
    rfl
  case zpack =>
    rw [commandError, h.packError_eq nofun, zpackOutLen, (h.source_eq nofun).1]
    rfl
  case chunk =>
    rw [commandError, chunkError, h.sourceError_eq nofun, h.outputError_eq, chunkOutLen, (h.source_eq nofun).1]
    rfl
  case encode =>
    obtain ⟨hW, hH, hC⟩ := h.image_eq (.inr rfl)
    have hlen : encodeOutLen s = encodeOutLen u := by rw [encodeOutLen, encodeOutLen, hW, hH, hC]
    rw [commandError, encodeError, h.imageChecks_eq (.inr rfl), hlen]
    rfl

/-- A DST-writing command that completes puts the same output in both states, on whatever else they hold. -/
theorem SameOperands.output_eq (h : SameOperands i s u) (hs : TableOk s) (hu : TableOk u)
    (hi : writesDst i = true) (hnone : commandError i s = none) :
    ∃ (n : Nat) (out : List Byte) (s₀ u₀ : State), out.length = n ∧
      commandSuccess i s = putOutput n out s₀ ∧ commandSuccess i u = putOutput n out u₀ := by
  cases i
  case tblinit | crc32 | adler32 => cases hi
  case filter =>
    obtain ⟨-, hsrc⟩ := h.source_eq nofun
    obtain ⟨hW, hH, hC⟩ := h.image_eq (.inl rfl)
    obtain ⟨himage, -⟩ := Option.or_eq_none_iff.mp hnone
    have hlen : (Fn.filter (opSrc s) (opW s) (opH s) (opC s)).length = filterOutLen s :=
      Fn.length_filter _ _ _ _ ((length_opSrc s).trans (opL_eq_of_imageError himage))
    refine ⟨_, _, s, u, hlen, rfl, ?_⟩
    simp only [commandSuccess, filterOutLen, hW, hH, hC, hsrc]
  case store =>
    obtain ⟨hL, hsrc⟩ := h.source_eq nofun
    refine ⟨_, _, s, u, length_storedBlocks_opSrc s, commandSuccess_store s, ?_⟩
    simp only [commandSuccess_store, storeOutLen, hL, hsrc]
  case zpack =>
    obtain ⟨hL, hsrc⟩ := h.source_eq nofun
    refine ⟨_, _, s, u, length_zlibWrap_opSrc s, commandSuccess_zpack s, ?_⟩
    simp only [commandSuccess_zpack, zpackOutLen, hL, hsrc]
  case chunk =>
    obtain ⟨hL, hsrc⟩ := h.source_eq nofun
    refine ⟨_, _, ensureTable s, ensureTable u, length_chunk_opSrc s, commandSuccess_chunk hs, ?_⟩
    simp only [commandSuccess_chunk hu, chunkOutLen, h.type_eq rfl, hL, hsrc]
  case encode =>
    obtain ⟨-, hsrc⟩ := h.source_eq nofun
    obtain ⟨hW, hH, hC⟩ := h.image_eq (.inr rfl)
    obtain ⟨himage, -⟩ := Option.or_eq_none_iff.mp hnone
    refine ⟨_, _, ensureTable s, ensureTable u, length_encode_opSrc (opL_eq_of_imageError himage),
      commandSuccess_encode hs, ?_⟩
    simp only [commandSuccess_encode hu, encodeOutLen, hW, hH, hC, hsrc]

/-- A checksum command that completes leaves the same RESULT in both states. -/
theorem SameOperands.result_eq (h : SameOperands i s u) (hs : TableOk s) (hu : TableOk u)
    (hi : i = .crc32 ∨ i = .adler32) : (commandSuccess i s).result = (commandSuccess i u).result := by
  rcases hi with rfl | rfl <;> obtain ⟨-, hsrc⟩ := h.source_eq nofun
  · simp only [commandSuccess, setResult_result, crcEngine_eq_crc32 _ (ensureTable_built _ hs),
      crcEngine_eq_crc32 _ (ensureTable_built _ hu), hsrc]
  · simp only [commandSuccess, setResult_result, hsrc]

end

/-- Settles O36: the checks agree, so both runs complete, with the same output and RESULT, or both end in the same
error, with no output. -/
theorem commandsDependOnOperandsOnly : Obligations.CommandsDependOnOperandsOnly := by
  intro i s u s' u' hs hu hop hexecs hexecu
  simp only [← writesDst_iff]
  have herror := hop.commandError_eq
  cases hcheck : commandError i s with
  | none =>
    cases hexecs.symm.trans (exec_of_no_error hcheck)
    cases hexecu.symm.trans (exec_of_no_error (herror ▸ hcheck))
    refine ⟨rfl, fun hi => ?output, fun hi _ => hop.result_eq hs hu hi⟩
    case output =>
      obtain ⟨n, out, s₀, u₀, hlen, hsuccs, hsuccu⟩ := hop.output_eq hs hu hi hcheck
      rw [hsuccs, hsuccu, dstBytes_complete_putOutput_dstLen hlen, dstBytes_complete_putOutput_dstLen hlen]
      exact ⟨rfl, rfl⟩
  | some e =>
    cases hexecs.symm.trans (exec_of_error hcheck)
    cases hexecu.symm.trans (exec_of_error (herror ▸ hcheck))
    refine ⟨by rw [raiseError_errcode, raiseError_errcode], fun hi => ?noOutput, fun _ hzero => ?noResult⟩
    case noOutput =>
      rw [raiseError_of_writesDst i e s hi, raiseError_of_writesDst i e u hi]
      exact ⟨rfl, rfl⟩
    case noResult =>
      rw [raiseError_errcode] at hzero
      exact absurd hzero (code_ne_zero e)

end Sys2Proof.Machine
end

section
/-! PROOFS. The errors of the commands (`60_exceptions.md`): which code each command ends with (R191, R192) and what an
error changes (R193). -/

namespace Sys2Proof.Machine

/-! ### The code a command ends with -/

/-- Every command ends with the code its checks report. -/
theorem exec_ends_with_code {i : Instr} {s : State} {code : BitVec 4} (h : reportedCode (commandError i s) = code) :
    ∃ t, exec i s = .next t ∧ t.errcode = code := by
  subst h
  cases he : commandError i s with
  | none => exact ⟨_, exec_of_no_error he, complete_errcode _⟩
  | some e => exact ⟨_, exec_of_error he, raiseError_errcode _ _ _⟩

theorem reportedCode_sourceError (s : State) :
    reportedCode (sourceError s) = if s.params.srcCap < s.srcLen.toNat then 4#4 else 0#4 :=
  reportedCode_check _ _ none

theorem reportedCode_store (s : State) :
    reportedCode (commandError .store s) =
      packCode s.srcLen.toNat (s.srcLen.toNat + 5 * ((s.srcLen.toNat + 65534) / 65535))
        s.params.srcCap s.params.dstCap := by
  rw [← storeOutLen_eq]
  exact reportedCode_packError _ s

theorem reportedCode_zpack (s : State) :
    reportedCode (commandError .zpack s) =
      packCode s.srcLen.toNat (6 + s.srcLen.toNat + 5 * ((s.srcLen.toNat + 65534) / 65535))
        s.params.srcCap s.params.dstCap := by
  rw [← zpackOutLen_eq]
  exact reportedCode_packError _ s

/-- A word that names no command ends with code 5 and changes nothing else, whatever the registers hold (R83, R193). -/
theorem issue_of_names_no_command {v : Word} (h : ∀ i, decode v ≠ .ok i) (s : State) :
    issue v s = .next { s with errcode := 5#4 } := by
  cases hd : decode v with
  | ok i => exact absurd hd (h i)
  | error e => exact issue_of_decode_error hd s

/-- Settles O25: each command ends with the code its checks report, which is that of R192's order. -/
theorem errorCodesInOrder : Obligations.ErrorCodesInOrder := by
  intro s
  refine ⟨?tblinit, ?crc32, ?adler32, ?filter, ?store, ?zpack, ?chunk, ?encode, ?illegal⟩
  case tblinit => exact exec_ends_with_code rfl
  case crc32 => exact exec_ends_with_code (reportedCode_sourceError s)
  case adler32 => exact exec_ends_with_code (reportedCode_sourceError s)
  case filter => exact exec_ends_with_code (reportedCode_filter s)
  case store => exact exec_ends_with_code (reportedCode_store s)
  case zpack => exact exec_ends_with_code (reportedCode_zpack s)
  case chunk => exact exec_ends_with_code (reportedCode_chunk s)
  case encode =>
    rw [← encodeOutLen_eq]
    exact exec_ends_with_code (reportedCode_encode s)
  case illegal => exact fun v hv => ⟨_, issue_of_names_no_command hv s, rfl⟩

/-! ### What an error changes -/

/-- A command that ends with a non-zero code ends in the error its checks report. -/
theorem exec_error_of_errcode_ne_zero {i : Instr} {s t : State} (h : exec i s = .next t) (hcode : t.errcode ≠ 0#4) :
    ∃ e, commandError i s = some e ∧ t = raiseError (some i) e s := by
  rcases exec_cases h with ⟨-, -, hzero⟩ | ⟨e, he, ht, -, -⟩
  · exact absurd hzero hcode
  · exact ⟨e, he, ht⟩

/-- Settles O26: a non-zero code comes from one error of the checks, and what that error changes is decided by whether
the command writes DST. -/
theorem errorChangesOnlyItsRecord : Obligations.ErrorChangesOnlyItsRecord := by
  refine ⟨fun i s t hexec hcode => ?command, fun s _ hv => issue_of_names_no_command hv s⟩
  case command =>
    obtain ⟨e, he, rfl⟩ := exec_error_of_errcode_ne_zero hexec hcode
    rw [raiseError_errcode]
    refine ⟨fun hi => ?output, fun hi => ?checksum, ?tblinit⟩
    case output => exact raiseError_outputLost i e s ((writesDst_iff i).mpr hi)
    case checksum =>
      have hdst : writesDst i = false := by rcases hi with rfl | rfl <;> rfl
      exact raiseError_of_not_writesDst i e s hdst
    case tblinit =>
      rintro rfl
      cases he

end Sys2Proof.Machine
end

section
/-! PROOFS. What one step can do (`20_memory.md` R60, R64): the block stays quiet, runs a command, refuses a word,
stores a register or a byte of SRC, or resets. -/

namespace Sys2Proof.Machine

/-- The effects of a step from `s`; `rest` is what is left of the host's queue. -/
inductive StepEffect (s : State) : State → Prop
  /-- No field of the block changes: idle, a read, or an ignored write. -/
  | quiet (rest : List Transaction) (v : Option Word) : StepEffect s { s with pending := rest, response := v }
  /-- A legal word runs its command (R84). -/
  | command (i : Instr) (rest : List Transaction) {t : State} (hexec : exec i (s.taken rest) = .next t) : StepEffect s t
  /-- An illegal word records IllegalCommand (R83). -/
  | illegal (rest : List Transaction) : StepEffect s { s.taken rest with errcode := 5#4 }
  /-- A write of a register that is not CMD (R51). -/
  | register (r : Reg) (v : Word) (rest : List Transaction) : StepEffect s (writeReg r v (s.taken rest))
  /-- A write of SRC (R53). -/
  | source (a : Word) (b : Byte) (rest : List Transaction) (hhead : s.pending.head? = some (.srcWrite a b)) :
    StepEffect s (writeSrc a.toNat b (s.taken rest))
  /-- Reset (R220). -/
  | reset (rest : List Transaction) (hhead : s.pending.head? = some .reset) : StepEffect s (resetBlock (s.taken rest))

/-- Everything a step can do. -/
theorem stepEffect_of_step {s t : State} (h : step s = .next t) : StepEffect s t := by
  rcases step_cases h with ⟨-, rfl⟩ | ⟨r, rest, hp, hr⟩
  · exact .quiet t.pending t.response
  · have hhead : s.pending.head? = some r := by rw [hp, List.head?_cons]
    rcases transact_cases hr with ⟨k, v, -, -, hissue⟩ | ⟨k, v, q, -, rfl⟩ | ⟨a, b, rfl, rfl⟩ | ⟨rfl, rfl⟩ | ht
    · rcases issue_cases hissue with ⟨i, -, hexec⟩ | ⟨-, rfl⟩
      · exact .command i rest hexec
      · exact .illegal rest
    · exact .register q v rest
    · exact .source a b rest hhead
    · exact .reset rest hhead
    · exact ht ▸ .quiet rest t.response

/-! ### What every command leaves unchanged (R82) -/

/-- `t` has the capacities, the operand registers, SRC and the host's side of `s`. -/
structure OperandsKept (s t : State) : Prop where
  params : t.params = s.params
  width : t.width = s.width
  height : t.height = s.height
  channels : t.channels = s.channels
  srcLen : t.srcLen = s.srcLen
  ctype : t.ctype = s.ctype
  src : t.src = s.src
  pending : t.pending = s.pending
  response : t.response = s.response

theorem operandsKept_commandSuccess (i : Instr) (s : State) : OperandsKept s (commandSuccess i s) := by
  cases i <;> constructor <;> simp [commandSuccess]

theorem operandsKept_raiseError (command : Option Instr) (e : ErrorKind) (s : State) :
    OperandsKept s (raiseError command e s) := by
  constructor <;> simp

/-- No command writes what it reads, in success or in error. -/
theorem operandsKept_of_exec {i : Instr} {s t : State} (h : exec i s = .next t) : OperandsKept s t := by
  rcases exec_cases h with ⟨-, rfl, -⟩ | ⟨e, -, rfl, -, -⟩
  · exact { operandsKept_commandSuccess i s with }
  · exact operandsKept_raiseError (some i) e s

end Sys2Proof.Machine
end

section
/-! PROOFS. The invariant of the machine: every operation on the state keeps it, so every command and every step does
(R5, R25, R27, R28, R30, R31). -/

namespace Sys2Proof.Machine

section
variable {s : State}

/-! ### The operations on the registers -/

/-- The host's queue and the returned value are in no part of the invariant. -/
theorem State.Inv.hostFields (h : s.Inv) (rest : List Transaction) (v : Option Word) :
    State.Inv { s with pending := rest, response := v } := { h with }

theorem State.Inv.writeReg (h : s.Inv) (r : Reg) (v : Word) : (writeReg r v s).Inv := by
  cases r <;> exact { h with }

theorem State.Inv.setResult (h : s.Inv) (v : Word) : (setResult v s).Inv := { h with }

/-- A code of R190 keeps the range of R27. -/
theorem State.Inv.setErrcode (h : s.Inv) {c : BitVec 4} (hc : c.toNat ≤ 6) : (setErrcode c s).Inv :=
  { h with errcodeRange := hc }

theorem toNat_code_le (e : ErrorKind) : e.code.toNat ≤ 6 := by cases e <;> decide

/-! ### The operations on the memories -/

/-- A host write to SRC stays below `SRC_CAP` (R53). -/
theorem State.Inv.writeSrc (h : s.Inv) (a : Nat) (b : Byte) : (writeSrc a b s).Inv := by
  unfold Machine.writeSrc
  split
  next ha =>
    refine { h with srcWf := cellsWf_writeCell a b s.src.cells h.srcWf, srcRange := fun c hc => ?_ }
    rcases mem_writeCell a b s.src.cells c hc with rfl | hc
    · exact ha
    · exact h.srcRange c hc
  next => exact h

/-- The table initialiser builds the CRC table, or leaves it (R116). -/
theorem State.Inv.ensureTable (h : s.Inv) : (ensureTable s).Inv := by
  cases hv : s.tblValid with
  | true => rwa [ensureTable_of_valid s hv]
  | false =>
    rw [ensureTable_eq s]
    exact { h with
      tblWf := tbl_wf_ensureTable s h.tblWf
      table := fun _ => (ensureTable_built s h.table).2
      tableUnbuilt := nofun
      drawsFresh := by simpa [hv] using h.drawsFresh }

/-- A new draw for DST is fresh, and leaves the others older than the counter (log 2). -/
theorem State.Inv.drawsFresh_of_newDst (h : s.Inv) :
    s.src.draw < s.draws + 1 ∧ s.draws < s.draws + 1 ∧ s.tbl.draw < s.draws + 1 := by
  obtain ⟨hsrc, -, htbl⟩ := h.drawsFresh
  omega

/-- An output of the stated length that fits DST has its bytes below `DST_LEN` and at no other offset (R31). -/
theorem State.Inv.putOutput (h : s.Inv) {n : Nat} {out : List Byte} (hlen : out.length = n)
    (hn : n ≤ s.params.dstCap) : (putOutput n out s).Inv := by
  have hdst : (Machine.putOutput n out s).dstLen.toNat = n := toNat_dstLen_complete_putOutput out h.params hn
  exact { h with
    dstWf := dst_wf_putOutput n out s
    dstOutput := by rw [hdst, putOutput_dst, map_fst_cellsFrom, hlen, List.range_eq_range']
    dstFits := hdst.trans_le hn
    drawsFresh := h.drawsFresh_of_newDst }

/-- No output: no byte of DST is known and `DST_LEN` is 0 (R193). -/
theorem State.Inv.dropOutput (h : s.Inv) : (dropOutput s).Inv :=
  { h with
    dstWf := dst_wf_dropOutput s
    dstOutput := rfl
    dstFits := Nat.zero_le _
    drawsFresh := h.drawsFresh_of_newDst }

/-- Reset keeps only the capacities (R34, R220). -/
theorem State.Inv.resetBlock (h : s.Inv) : (resetBlock s).Inv where
  params := h.params
  srcWf := .nil
  dstWf := .nil
  tblWf := .nil
  srcRange := nofun
  dstOutput := rfl
  dstFits := Nat.zero_le _
  errcodeRange := Nat.zero_le _
  table := nofun
  tableUnbuilt := fun _ => rfl
  drawsFresh := ⟨Nat.lt_succ_self _, Nat.lt_succ_self _, Nat.lt_succ_self _⟩

/-! ### The commands -/

theorem outputError_eq_none_iff {n : Nat} : outputError n s = none ↔ n ≤ s.params.dstCap := by
  simp [outputError]

/-- The checks of FILTER and ENCODE passed: the operand is the image's and the output fits DST (R192). -/
theorem fits_of_imageChecks {n : Nat} (h : (imageError s).or ((sourceError s).or (outputError n s)) = none) :
    opL s = opW s * opH s * opC s ∧ n ≤ s.params.dstCap := by
  obtain ⟨himage, hmemories⟩ := Option.or_eq_none_iff.mp h
  obtain ⟨-, hfits⟩ := Option.or_eq_none_iff.mp hmemories
  exact ⟨opL_eq_of_imageError himage, outputError_eq_none_iff.mp hfits⟩

/-- The checks of STORE and ZPACK passed: the output fits DST (R192). -/
theorem fits_of_packError {n : Nat} (h : packError n s = none) : n ≤ s.params.dstCap := by
  obtain ⟨-, hmemories⟩ := Option.or_eq_none_iff.mp h
  obtain ⟨-, hfits⟩ := Option.or_eq_none_iff.mp hmemories
  exact outputError_eq_none_iff.mp hfits

theorem State.Inv.raiseError (h : s.Inv) (command : Option Instr) (e : ErrorKind) : (raiseError command e s).Inv := by
  unfold Machine.raiseError
  split
  · exact h.dropOutput.setErrcode (toNat_code_le e)
  · exact h.setErrcode (toNat_code_le e)

/-- Each output has the length its check compared with `DST_CAP` (R192, R194). -/
theorem State.Inv.commandSuccess (h : s.Inv) {i : Instr} (hcheck : commandError i s = none) :
    (commandSuccess i s).Inv := by
  cases i with
  | tblinit => exact h.ensureTable
  | crc32 => exact h.ensureTable.setResult _
  | adler32 => exact h.setResult _
  | filter =>
    obtain ⟨hL, hfits⟩ := fits_of_imageChecks hcheck
    exact h.putOutput (Fn.length_filter _ _ _ _ ((length_opSrc s).trans hL)) hfits
  | store => exact h.putOutput (length_storedBlocks_opSrc s) (fits_of_packError hcheck)
  | zpack =>
    rw [commandSuccess_zpack]
    exact h.putOutput (length_zlibWrap_opSrc s) (fits_of_packError hcheck)
  | chunk =>
    obtain ⟨-, hfits⟩ := Option.or_eq_none_iff.mp hcheck
    rw [outputError_eq_none_iff, ← ensureTable_params s] at hfits
    rw [commandSuccess_chunk h.table]
    exact h.ensureTable.putOutput (length_chunk_opSrc s) hfits
  | encode =>
    obtain ⟨hL, hfits⟩ := fits_of_imageChecks hcheck
    rw [← ensureTable_params s] at hfits
    rw [commandSuccess_encode h.table]
    exact h.ensureTable.putOutput (length_encode_opSrc hL) hfits

/-- A command keeps the invariant, in success and in error. -/
theorem State.Inv.exec (h : s.Inv) {i : Instr} {t : State} (hexec : exec i s = .next t) : t.Inv := by
  rcases exec_cases hexec with ⟨hcheck, rfl, -⟩ | ⟨e, -, rfl, -, -⟩
  · exact (h.commandSuccess hcheck).setErrcode (Nat.zero_le 6)
  · exact h.raiseError (some i) e

end

/-! ### The machine -/

/-- Settles O17: each effect a step can have is an operation that keeps the invariant. -/
theorem stepKeepsInvariant : Obligations.StepKeepsInvariant := by
  intro s t hs hstep
  have taken (rest : List Transaction) : (s.taken rest).Inv := hs.hostFields rest none
  cases stepEffect_of_step hstep with
  | quiet rest v => exact hs.hostFields rest v
  | command i rest hexec => exact (taken rest).exec hexec
  | illegal rest => exact (taken rest).setErrcode (toNat_code_le .illegalCommand)
  | register r v rest => exact (taken rest).writeReg r v
  | source a b rest _ => exact (taken rest).writeSrc a.toNat b
  | reset rest _ => exact (taken rest).resetBlock

/-- Settles O16: the reset state lists nothing, and its open capacities are in range by their type. -/
theorem resetMeetsInvariant : Obligations.ResetMeetsInvariant where
  params := by simp [State.reset, Config.params, Params.wellFormed]
  srcWf := .nil
  dstWf := .nil
  tblWf := .nil
  srcRange := nofun
  dstOutput := rfl
  dstFits := Nat.zero_le _
  errcodeRange := Nat.zero_le _
  table := nofun
  tableUnbuilt := fun _ => rfl
  drawsFresh := ⟨Nat.one_pos, Nat.one_pos, Nat.one_pos⟩

end Sys2Proof.Machine
end

section
/-! PROOFS. What the steps and the commands leave unchanged: the capacities (R5), SRC (R30), a built table (R28), RESULT
(R24), and the frame of each command (R82). -/

namespace Sys2Proof.Machine

/-! ### The capacities and SRC -/

/-- Settles O18: no effect of a step touches the capacities. -/
theorem stepKeepsCapacities : Obligations.StepKeepsCapacities := by
  intro s t hstep
  cases stepEffect_of_step hstep with
  | quiet rest v => rfl
  | command i rest hexec => exact (operandsKept_of_exec hexec).params
  | illegal rest => rfl
  | register r v rest => cases r <;> rfl
  | source a b rest _ => exact writeSrc_params a.toNat b _
  | reset rest _ => rfl

/-- Settles O21: of the effects of a step only a write of SRC and Reset touch it, and each has its transaction at the
head of the queue. -/
theorem sourceChangesOnlyByHost : Obligations.SourceChangesOnlyByHost := by
  intro s t hreset hwrite hstep
  cases stepEffect_of_step hstep with
  | quiet rest v => rfl
  | command i rest hexec => exact (operandsKept_of_exec hexec).src
  | illegal rest => rfl
  | register r v rest => cases r <;> rfl
  | source a b rest hhead => exact absurd hhead (hwrite a b)
  | reset rest hhead => exact absurd hhead hreset

/-! ### The table (R27, R28, R116) -/

/-- The commands that call `ensure_table` (R116). -/
def buildsTable : Instr → Bool
  | .tblinit | .crc32 | .chunk | .encode => true
  | .adler32 | .filter | .store | .zpack => false

theorem buildsTable_eq (i : Instr) : buildsTable i = (i == .tblinit || i == .crc32 || i == .chunk || i == .encode) := by
  cases i <;> rfl

theorem table_commandSuccess_of_buildsTable {i : Instr} (hi : buildsTable i = true) (s : State) :
    (commandSuccess i s).tblValid = true ∧ (commandSuccess i s).tbl = (ensureTable s).tbl := by
  cases i
  case tblinit | crc32 | chunk | encode => simp [commandSuccess]
  case adler32 | filter | store | zpack => cases hi

theorem table_commandSuccess_of_not_buildsTable {i : Instr} (hi : buildsTable i = false) (s : State) :
    (commandSuccess i s).tblValid = s.tblValid ∧ (commandSuccess i s).tbl = s.tbl := by
  cases i
  case tblinit | crc32 | chunk | encode => cases hi
  case adler32 | filter | store | zpack => simp [commandSuccess]

/-- Everything a command can do to the table: `ensure_table` in a command that calls it and completes, else nothing. -/
theorem table_cases_of_exec {i : Instr} {s t : State} (h : exec i s = .next t) :
    (buildsTable i = true ∧ t.errcode = 0#4 ∧ t.tblValid = true ∧ t.tbl = (ensureTable s).tbl) ∨
    (¬(buildsTable i = true ∧ t.errcode = 0#4) ∧ t.tblValid = s.tblValid ∧ t.tbl = s.tbl) := by
  rcases exec_cases h with ⟨-, rfl, hzero⟩ | ⟨e, -, rfl, -, hne⟩
  · cases hi : buildsTable i with
    | true => exact .inl ⟨rfl, hzero, table_commandSuccess_of_buildsTable hi s⟩
    | false => exact .inr ⟨nofun, table_commandSuccess_of_not_buildsTable hi s⟩
  · exact .inr ⟨fun hboth => hne hboth.2, raiseError_tblValid _ e s, raiseError_tbl _ e s⟩

/-- No command changes a built table or its flag (R28). -/
theorem builtTable_kept_of_exec {i : Instr} {s t : State} (h : exec i s = .next t) (hv : s.tblValid = true) :
    t.tblValid = true ∧ t.tbl = s.tbl := by
  rcases table_cases_of_exec h with ⟨-, -, hvalid, htbl⟩ | ⟨-, hvalid, htbl⟩
  · exact ⟨hvalid, by rw [htbl, ensureTable_of_valid s hv]⟩
  · exact ⟨hvalid.trans hv, htbl⟩

/-- No command that does not call `ensure_table` changes the table or its flag. -/
theorem table_kept_of_exec {i : Instr} {s t : State} (h : exec i s = .next t) (hi : buildsTable i = false) :
    t.tblValid = s.tblValid ∧ t.tbl = s.tbl := by
  rcases table_cases_of_exec h with ⟨hbuilds, -⟩ | ⟨-, hkept⟩
  · exact absurd hbuilds (by simp [hi])
  · exact hkept

/-- Settles O19: of the effects of a step only Reset and a command touch the table, and no command a built one. -/
theorem builtTableIsImmutable : Obligations.BuiltTableIsImmutable := by
  intro s t hreset hv hstep
  cases stepEffect_of_step hstep with
  | quiet rest v => exact ⟨hv, rfl⟩
  | command i rest hexec => exact builtTable_kept_of_exec (s := s.taken rest) hexec hv
  | illegal rest => exact ⟨hv, rfl⟩
  | register r v rest => cases r <;> exact ⟨hv, rfl⟩
  | source a b rest _ => exact ⟨(writeSrc_tblValid a.toNat b _).trans hv, writeSrc_tbl a.toNat b _⟩
  | reset rest hhead => exact absurd hhead hreset

/-- Settles O20: the flag follows what a command does to the table. -/
theorem tableFlagSetOnlyByTableCommands : Obligations.TableFlagSetOnlyByTableCommands := by
  intro i s t hexec
  rw [← buildsTable_eq]
  rcases table_cases_of_exec hexec with ⟨hbuilds, hzero, hvalid, -⟩ | ⟨hnot, hvalid, -⟩
  · simp [hbuilds, hzero, hvalid]
  · simpa [hvalid] using fun hbuilds hzero => absurd ⟨hbuilds, hzero⟩ hnot

/-! ### RESULT and the output (R24, R25) -/

theorem result_commandSuccess {i : Instr} (hi : i ≠ .crc32 ∧ i ≠ .adler32) (s : State) :
    (commandSuccess i s).result = s.result := by
  obtain ⟨hcrc, hadler⟩ := hi
  cases i
  case crc32 => exact absurd rfl hcrc
  case adler32 => exact absurd rfl hadler
  case tblinit | filter | store | zpack | chunk | encode => simp [commandSuccess]

/-- Settles O22: no error writes RESULT, and of the success states only those of CRC32 and ADLER32 do. -/
theorem resultKeptUnlessChecksumCompletes : Obligations.ResultKeptUnlessChecksumCompletes := by
  intro i s t hexec hkept
  rcases exec_cases hexec with ⟨-, rfl, hzero⟩ | ⟨e, -, rfl, -, -⟩
  · exact result_commandSuccess (hkept.resolve_right (not_not.mpr hzero)) s
  · exact raiseError_result (some i) e s

/-- A command outside the DST-writing group leaves DST and `DST_LEN` (R25). -/
theorem output_kept_of_exec {i : Instr} {s t : State} (h : exec i s = .next t) (hi : writesDst i = false) :
    t.dstLen = s.dstLen ∧ t.dst = s.dst ∧ t.draws = s.draws := by
  rcases exec_cases h with ⟨-, rfl, -⟩ | ⟨e, -, rfl, -, -⟩
  · cases i
    case tblinit | crc32 | adler32 => simp [commandSuccess]
    case filter | store | zpack | chunk | encode => cases hi
  · rw [raiseError_of_not_writesDst i e s hi]
    exact ⟨rfl, rfl, rfl⟩

/-! ### The frames (R82) -/

/-- Settles O23: the operands, DST and the table, each by its own lemma. -/
theorem checksumCommandsFrame : Obligations.ChecksumCommandsFrame := by
  intro i s t hi hexec
  have hops := operandsKept_of_exec hexec
  have hdst : writesDst i = false := by rcases hi with rfl | rfl | rfl <;> rfl
  obtain ⟨hlen, hbytes, hdraws⟩ := output_kept_of_exec hexec hdst
  refine ⟨hops.params, hops.width, hops.height, hops.channels, hops.srcLen, hops.ctype, hlen, srcByte_congr hops.src,
    dstByte_congr hbytes, hdraws, hops.pending, hops.response, ?result, ?table, ?built⟩
  case result =>
    rintro rfl
    exact resultKeptUnlessChecksumCompletes _ s t hexec (.inl ⟨nofun, nofun⟩)
  case table =>
    rintro rfl
    obtain ⟨hvalid, htbl⟩ := table_kept_of_exec hexec rfl
    exact ⟨hvalid, tblEntry_congr htbl⟩
  case built => exact fun hv => tblEntry_congr (builtTable_kept_of_exec hexec hv).2

/-- Settles O24: the operands, RESULT and the table, each by its own lemma. -/
theorem outputCommandsFrame : Obligations.OutputCommandsFrame := by
  intro i s t hi hexec
  have hops := operandsKept_of_exec hexec
  have hresult : t.result = s.result := by
    refine resultKeptUnlessChecksumCompletes i s t hexec (.inl ?_)
    rcases hi with rfl | rfl | rfl | rfl | rfl <;> exact ⟨nofun, nofun⟩
  refine ⟨hops.params, hops.width, hops.height, hops.channels, hops.srcLen, hops.ctype, hresult,
    srcByte_congr hops.src, hops.pending, hops.response, ?table, ?built⟩
  case table =>
    intro hkeeps
    have hnot : buildsTable i = false := by rcases hkeeps with rfl | rfl | rfl <;> rfl
    obtain ⟨hvalid, htbl⟩ := table_kept_of_exec hexec hnot
    exact ⟨hvalid, tblEntry_congr htbl⟩
  case built => exact fun hv => tblEntry_congr (builtTable_kept_of_exec hexec hv).2

/-! ### A command issued again (R195) -/

theorem OperandsKept.sameOperands {s t : State} (h : OperandsKept s t) (i : Instr) : SameOperands i s t :=
  ⟨h.params.symm, fun _ => ⟨h.width.symm, h.height.symm, h.channels.symm⟩, fun _ => h.ctype.symm,
    fun _ => ⟨h.srcLen.symm, fun a _ => (srcByte_congr h.src a).symm⟩⟩

/-- Settles O27: an error keeps the operands, so the checks report the same error again. -/
theorem reissuedCommandGivesSameError : Obligations.ReissuedCommandGivesSameError := by
  intro i s t u hexec hcode hagain
  have hchecks := ((operandsKept_of_exec hexec).sameOperands i).commandError_eq
  obtain ⟨e, he, rfl⟩ := exec_error_of_errcode_ne_zero hexec hcode
  cases hagain.symm.trans (exec_of_error (hchecks.symm.trans he))
  rw [raiseError_errcode, raiseError_errcode]

end Sys2Proof.Machine
end

section
/-! PROOFS. The command words and their commands (`30_encoding.md` R80 to R85). -/

namespace Sys2Proof

theorem decode_encode (i : Instr) : decode (encode i) = .ok i := by
  cases i <;> rfl

/-- A command word is its two fields, the reserved bits above the opcode (R80). -/
theorem rsvdField_append_opcodeField (v : Word) : rsvdField v ++ opcodeField v = v := by
  apply BitVec.eq_of_toNat_eq
  rw [BitVec.toNat_append, ← Nat.shiftLeft_add_eq_or_of_lt (opcodeField v).isLt, toNat_rsvdField, toNat_opcodeField,
    Nat.shiftLeft_eq]
  omega

theorem eq_encode_of_fields {v : Word} {i : Instr} (hr : rsvdField v = 0#24) (ho : opcodeField v = opcode i) :
    v = encode i := by
  rw [← rsvdField_append_opcodeField v, hr, ho, encode]

/-- Every opcode from 1 to 8 is a command's (R81). -/
theorem exists_opcode_eq {op : BitVec 8} (h1 : 1 ≤ op.toNat) (h8 : op.toNat ≤ 8) : ∃ i, op = opcode i := by
  have hop : op = BitVec.ofNat 8 op.toNat := by rw [BitVec.ofNat_toNat, BitVec.setWidth_eq]
  generalize op.toNat = n at hop h1 h8
  subst hop
  interval_cases n
  · exact ⟨.tblinit, rfl⟩
  · exact ⟨.crc32, rfl⟩
  · exact ⟨.adler32, rfl⟩
  · exact ⟨.filter, rfl⟩
  · exact ⟨.store, rfl⟩
  · exact ⟨.zpack, rfl⟩
  · exact ⟨.chunk, rfl⟩
  · exact ⟨.encode, rfl⟩

/-- Settles O2: a word that decodes has the two fields of its command's word. -/
theorem decodeInvertsEncode : Obligations.DecodeInvertsEncode := by
  refine ⟨decode_encode, fun v i h => ?_⟩
  obtain ⟨hr, ho⟩ := fields_of_decode h
  exact eq_encode_of_fields hr ho

/-- Settles O3: a legal word has the two fields of a command's word. -/
theorem decodesExactlyLegalWords : Obligations.DecodesExactlyLegalWords := by
  intro v
  refine ⟨fun ⟨i, h⟩ => legal_of_decode h, fun ⟨hr, h1, h8⟩ => ?_⟩
  rw [← toNat_rsvdField] at hr
  rw [← toNat_opcodeField] at h1 h8
  obtain ⟨i, ho⟩ := exists_opcode_eq h1 h8
  exact ⟨i, eq_encode_of_fields (BitVec.eq_of_toNat_eq hr) ho ▸ decode_encode i⟩

/-- Settles O1: the eight words are those of the commands; the other four fail the check of their field. -/
theorem commandWordsDecode : Obligations.CommandWordsDecode :=
  ⟨decode_encode .tblinit, decode_encode .crc32, decode_encode .adler32, decode_encode .filter, decode_encode .store,
    decode_encode .zpack, decode_encode .chunk, decode_encode .encode, rfl, rfl, rfl, rfl⟩

end Sys2Proof
end

section
/-! PROOFS. The host interface (`20_memory.md` R52 to R54, R58, R60; `10_state.md` R34): what each transaction does to
the block and returns. -/

namespace Sys2Proof.Machine

/-! ### Every step has a next state (R229) -/

theorem issue_of_decode_ok {v : Word} {i : Instr} (h : decode v = .ok i) (s : State) : issue v s = exec i s := by
  simp only [issue, h]

/-- The write of any word to CMD is answered. -/
theorem issue_next (v : Word) (s : State) : ∃ t, issue v s = .next t := by
  cases hd : decode v with
  | ok i => exact issue_of_decode_ok hd s ▸ exec_next i s
  | error e => exact ⟨_, issue_of_decode_error hd s⟩

/-- Every transaction is answered. -/
theorem transact_next (r : Transaction) (s : State) : ∃ t, transact r s = .next t := by
  cases r with
  | regWrite k v =>
    by_cases h : 4 * k.toNat = 0
    · rw [transact, hostRegWrite_of_offset_zero h]
      exact issue_next v s
    · exact ⟨_, hostRegWrite_of_offset_ne_zero h v s⟩
  | _ => exact ⟨_, rfl⟩

theorem step_idle {s : State} (h : s.pending = []) : step s = .next s := by
  simp only [step, performNext, h]

/-- Settles O6: with an empty queue there is no transaction to perform. -/
theorem idleHoldsAllState : Obligations.IdleHoldsAllState := fun _ => step_idle

/-- Settles O7: an idle step and every transaction are answered. -/
theorem everyStepAnswersNext : Obligations.EveryStepAnswersNext := by
  intro s
  cases hp : s.pending with
  | nil => exact ⟨s, step_idle hp⟩
  | cons r rest => exact step_cons hp ▸ transact_next r (s.taken rest)

/-- Settles O5: word index 0 is CMD, and the word written there is issued. -/
theorem stepRunsIssuedCommand : Obligations.StepRunsIssuedCommand := by
  intro s v i rest hp hd
  rw [step_cons hp, transact, hostRegWrite_of_offset_zero rfl, issue_of_decode_ok hd]

/-! ### SRC, DST and TBL (R52, R53, R54) -/

theorem writeSrc_of_lt {a : Nat} {s : State} (h : a < s.params.srcCap) (b : Byte) :
    writeSrc a b s = { s with src := (writeSrc a b s).src } := by
  simp only [writeSrc, if_pos h]

theorem writeSrc_of_ge {a : Nat} {s : State} (h : s.params.srcCap ≤ a) (b : Byte) : writeSrc a b s = s :=
  if_neg (Nat.not_lt.mpr h)

/-- Settles O9: a write stores its byte or is ignored, a read returns the byte, and no command writes SRC. -/
theorem sourceSpaceAnswersHost : Obligations.SourceSpaceAnswersHost := by
  refine ⟨?write, ?ignored, fun s a rest hp => step_cons hp, ?unwritten, fun i s t h => (operandsKept_of_exec h).src⟩
  case write =>
    intro s a b rest hp ha
    exact ⟨_, step_cons hp, srcByte_writeSrc_same a.toNat b (s.taken rest) ha,
      fun c hc => srcByte_writeSrc_other a.toNat c b (s.taken rest) hc, writeSrc_of_lt (s := s.taken rest) ha b⟩
  case ignored =>
    intro s a b rest hp ha
    rw [step_cons hp, transact, writeSrc_of_ge (s := s.taken rest) ha]
  case unwritten =>
    intro s a h
    rw [srcByte, h, Option.getD_none]

/-- Settles O10: each is its transaction on the state taken off the queue. -/
theorem destinationSpaceAnswersHost : Obligations.DestinationSpaceAnswersHost :=
  ⟨fun _ _ _ _ hp => step_cons hp, fun _ _ _ hp => step_cons hp⟩

theorem step_tblRead {s : State} {i : Word} {rest : List Transaction} (hp : s.pending = .tblRead i :: rest) :
    step s = .next { s with pending := rest, response := some (hostTblRead s i) } := step_cons hp

theorem hostTblRead_of_le {i : Word} (h : i.toNat ≤ 255) (s : State) : hostTblRead s i = tblEntry s i.toNat := if_pos h

theorem hostTblRead_of_gt {i : Word} (h : 255 < i.toNat) (s : State) : hostTblRead s i = 0#32 :=
  if_neg (Nat.not_le.mpr h)

/-- Settles O11: a read returns the entry, which is `crc_table(i)` or unknown. -/
theorem tableSpaceAnswersHost : Obligations.TableSpaceAnswersHost := by
  refine ⟨fun s i v rest hp => step_cons hp, ?above, ?built, ?unknown⟩
  case above =>
    intro s i rest hp hi
    rw [step_tblRead hp, hostTblRead_of_gt hi]
  case built =>
    rintro s i rest hp hi ⟨-, hentries⟩
    rw [step_tblRead hp, hostTblRead_of_le hi, hentries i.toNat (Nat.lt_succ_of_le hi)]
  case unknown =>
    intro s i rest hp hi hcells
    rw [step_tblRead hp, hostTblRead_of_le hi, tblEntry, hcells, readCell_nil, Option.getD_none]

/-! ### Reads (R58) -/

/-- A read returns a value that depends on the block alone, and changes no field of the block. -/
theorem transact_read {r : Transaction}
    (hr : (∃ k, r = .regRead k) ∨ (∃ a, r = .srcRead a) ∨ (∃ a, r = .dstRead a) ∨ (∃ i, r = .tblRead i)) (s : State) :
    ∃ value, ∀ (queue : List Transaction) (v : Option Word),
      transact r { s with pending := queue, response := v } =
        .next { s with pending := queue, response := some value } := by
  rcases hr with ⟨k, rfl⟩ | ⟨a, rfl⟩ | ⟨a, rfl⟩ | ⟨i, rfl⟩
  · refine ⟨loadAtOffset (4 * k.toNat) s, fun queue v => ?_⟩
    rw [transact, hostRegRead_eq_loadAtOffset]
    rfl
  · exact ⟨hostSrcRead s a, fun _ _ => rfl⟩
  · exact ⟨hostDstRead s a, fun _ _ => rfl⟩
  · exact ⟨hostTblRead s i, fun _ _ => rfl⟩

/-- Settles O12: both reads return the value the block gives, and the block is left as it was. -/
theorem readsAreIdempotent : Obligations.ReadsAreIdempotent := by
  intro s t u r rest hr hp hfirst hsecond
  obtain ⟨value, hread⟩ := transact_read hr s
  cases hfirst.symm.trans ((step_cons hp).trans (hread (r :: rest) none))
  cases hsecond.symm.trans ((step_cons rfl).trans (hread rest none))
  exact ⟨rfl, rfl⟩

/-! ### Reset (R34, R220) -/

/-- Settles O13: the step is `resetBlock`, whose fields are those of R34. -/
theorem resetTransactionClearsBlock : Obligations.ResetTransactionClearsBlock := by
  intro s rest hp
  exact ⟨resetBlock (s.taken rest), step_cons hp, rfl, rfl, rfl, rfl, rfl, rfl, rfl, rfl, rfl, status_eq _, rfl, rfl,
    rfl, rfl, rfl, rfl⟩

/-- Settles O14: STATUS is made of its two fields, and every other register is a field. -/
theorem resetStateIsZero : Obligations.ResetStateIsZero := by
  refine ⟨fun r => ?_, rfl, rfl, rfl, rfl, rfl⟩
  cases r
  case status => exact status_eq State.reset
  all_goals rfl

end Sys2Proof.Machine
end

section
/-! PROOFS. The checksums of the function layer (`40_checksum.md` R112, R113, R114): the CRC table against its bitwise
form, and the Adler-32 sums in closed form. -/

namespace Sys2Proof.Fn

/-! ### The bitwise CRC is linear, and shifts zero bits out (R112) -/

theorem bitStep_of_even {c : Word} (h : c.getLsbD 0 = false) : bitStep c = c >>> 1 := if_neg (by simp only [h]; decide)

theorem bitStep_of_odd {c : Word} (h : c.getLsbD 0 = true) : bitStep c = poly ^^^ (c >>> 1) := if_pos h

theorem bitStep_xor (x y : Word) : bitStep (x ^^^ y) = bitStep x ^^^ bitStep y := by
  have hbit : (x ^^^ y).getLsbD 0 = (x.getLsbD 0 ^^ y.getLsbD 0) := BitVec.getLsbD_xor
  have hshift : (x ^^^ y) >>> 1 = x >>> 1 ^^^ y >>> 1 := BitVec.ushiftRight_xor_distrib x y 1
  cases hx : x.getLsbD 0 <;> cases hy : y.getLsbD 0 <;> rw [hx, hy] at hbit
  case false.false => rw [bitStep_of_even hx, bitStep_of_even hy, bitStep_of_even hbit, hshift]
  case false.true =>
    rw [bitStep_of_even hx, bitStep_of_odd hy, bitStep_of_odd hbit, hshift, ← BitVec.xor_assoc, ← BitVec.xor_assoc,
      BitVec.xor_comm poly]
  case true.false => rw [bitStep_of_odd hx, bitStep_of_even hy, bitStep_of_odd hbit, hshift, BitVec.xor_assoc]
  case true.true =>
    rw [bitStep_of_odd hx, bitStep_of_odd hy, bitStep_of_even hbit, hshift, BitVec.xor_comm poly, BitVec.xor_assoc,
      ← BitVec.xor_assoc poly, BitVec.xor_self, BitVec.zero_xor]

theorem iterate_bitStep_xor (n : Nat) (x y : Word) :
    Nat.iterate bitStep n (x ^^^ y) = Nat.iterate bitStep n x ^^^ Nat.iterate bitStep n y := by
  induction n generalizing x y with
  | zero => rfl
  | succ n ih => rw [Function.iterate_succ_apply, bitStep_xor, ih]; rfl

/-- The polynomial never enters while zero bits leave. -/
theorem iterate_bitStep_of_low_zero (n : Nat) (x : Word) (h : ∀ i, i < n → x.getLsbD i = false) :
    Nat.iterate bitStep n x = x >>> n := by
  induction n generalizing x with
  | zero => rw [BitVec.ushiftRight_zero]; rfl
  | succ n ih =>
    have hlow : ∀ i, i < n → (x >>> 1).getLsbD i = false := by
      intro i hi
      rw [BitVec.getLsbD_ushiftRight]
      exact h (1 + i) (by omega)
    rw [Function.iterate_succ_apply, bitStep_of_even (h 0 n.succ_pos), ih _ hlow, ← BitVec.shiftRight_add, Nat.add_comm]

/-- A byte has no bit above its eight. -/
theorem byte_ushiftRight_eight (b : Byte) : b.setWidth 32 >>> 8 = 0#32 := by
  ext i
  simp

/-- Eight steps: the low byte goes through the table, the others are shifted down. -/
theorem iterate_bitStep_eight (x : Word) : Nat.iterate bitStep 8 x = crcTable (x.setWidth 8) ^^^ (x >>> 8) := by
  have hsplit : x = (x.setWidth 8).setWidth 32 ^^^ (x ^^^ (x.setWidth 8).setWidth 32) := by
    rw [BitVec.xor_comm x, ← BitVec.xor_assoc, BitVec.xor_self, BitVec.zero_xor]
  have hlow : ∀ i, i < 8 → (x ^^^ (x.setWidth 8).setWidth 32).getLsbD i = false := by
    intro i hi
    simp [hi, show i < 32 by omega]
  calc Nat.iterate bitStep 8 x
      = crcTable (x.setWidth 8) ^^^ Nat.iterate bitStep 8 (x ^^^ (x.setWidth 8).setWidth 32) := by
        conv_lhs => rw [hsplit, iterate_bitStep_xor]
        rfl
    _ = crcTable (x.setWidth 8) ^^^ (x >>> 8) := by
        rw [iterate_bitStep_of_low_zero 8 _ hlow, BitVec.ushiftRight_xor_distrib, byte_ushiftRight_eight,
          BitVec.xor_zero]

/-- Settles O37: the byte reaches the low eight bits only, so the shifted part is the accumulator's. -/
theorem crcStepIsEightBitSteps : Obligations.CrcStepIsEightBitSteps := by
  intro acc b
  rw [iterate_bitStep_eight, BitVec.ushiftRight_xor_distrib, byte_ushiftRight_eight, BitVec.xor_zero]
  rfl

/-! ### The engine's Adler-32 (R113) -/

/-- Settles O38: byte by byte and chunk by chunk the 32-bit registers hold the sums, none of which wraps. -/
theorem adlerEngineComputesFunction : Obligations.AdlerEngineComputesFunction := Machine.adlerEngine_eq_adler32

/-! ### The sums in closed form (R114 (a)) -/

/-- The sum of `(n - j) * s[j]` over a sequence of `n` bytes (R114). -/
def weightedSum (s : List Byte) : Nat := (s.zipIdx.map fun p => (s.length - p.2) * p.1.toNat).sum

theorem weightedSum_cons (x : Byte) (s : List Byte) :
    weightedSum (x :: s) = (s.length + 1) * x.toNat + weightedSum s := by
  rw [weightedSum, List.zipIdx_cons', List.map_cons, List.map_map, List.sum_cons]
  simp [weightedSum, Function.comp_def]

theorem foldl_adlerByte_eq (s : List Byte) (a b : Nat) :
    s.foldl adlerByte (a, b) = (a + (s.map BitVec.toNat).sum, b + s.length * a + weightedSum s) := by
  induction s generalizing a b with
  | nil => simp [weightedSum]
  | cons x s ih =>
    rw [List.foldl_cons, adlerByte, ih, weightedSum_cons, List.map_cons, List.sum_cons, List.length_cons]
    refine Prod.ext ?_ ?_ <;> dsimp only <;> ring

/-- Sums reduced before a chunk give what unreduced ones give. -/
theorem adlerChunk_mod (a b : Nat) (chunk : List Byte) :
    adlerChunk (a % adlerMod, b % adlerMod) chunk = adlerChunk (a, b) chunk := by
  simp only [adlerChunk, foldl_adlerByte_eq]
  refine Prod.ext ?_ ?_ <;> simp [Nat.add_mod, Nat.mul_mod]

theorem adlerChunk_append (ab : Nat × Nat) (c d : List Byte) :
    adlerChunk (adlerChunk ab c) d = adlerChunk ab (c ++ d) := by
  rw [adlerChunk.eq_1 ab c, adlerChunk_mod, adlerChunk, adlerChunk, List.foldl_append]

/-- From reduced sums, the chunks give what their bytes in one chunk give: no chunk bound matters. -/
theorem foldl_adlerChunk_eq (chunks : List (List Byte)) {ab : Nat × Nat} (hab : ReducedSums ab) :
    chunks.foldl adlerChunk ab = adlerChunk ab chunks.flatten := by
  induction chunks generalizing ab with
  | nil =>
    obtain ⟨ha, hb⟩ := hab
    exact Prod.ext (Nat.mod_eq_of_lt ha).symm (Nat.mod_eq_of_lt hb).symm
  | cons chunk rest ih =>
    rw [List.foldl_cons, ih (reducedSums_adlerChunk ab chunk), adlerChunk_append, List.flatten_cons]

/-- `(b << 16) | a` is `b * 65536 + a` for reduced sums. -/
theorem shiftLeft_or_eq_of_reducedSums {ab : Nat × Nat} (h : ReducedSums ab) :
    (ab.2 <<< 16) ||| ab.1 = ab.2 * 65536 + ab.1 := by
  have ha : ab.1 < 2 ^ 16 := h.1.trans (by decide)
  rw [← Nat.shiftLeft_add_eq_or_of_lt ha, Nat.shiftLeft_eq]

/-- Settles O39: the chunks are one chunk from the sums 1 and 0. -/
theorem adlerClosedForm : Obligations.AdlerClosedForm := by
  intro s
  have hfold : (pieces adlerChunkLen s).foldl adlerChunk (1, 0) = adlerChunk (1, 0) s := by
    rw [foldl_adlerChunk_eq _ ⟨by decide, by decide⟩, flatten_pieces adlerChunkLen s (by decide)]
  rw [adler32, hfold, shiftLeft_or_eq_of_reducedSums (reducedSums_adlerChunk _ _), adlerChunk, foldl_adlerByte_eq,
    Nat.zero_add, Nat.mul_one]
  rfl

/-! ### The size of the sums (R114 (b)) -/

/-- From sums of at most 65520, a chunk of at most `n` bytes of at most 255 keeps these bounds. -/
theorem foldl_adlerByte_le {chunk : List Byte} {a b n : Nat} (hn : chunk.length ≤ n) (ha : a ≤ 65520)
    (hb : b ≤ 65520) :
    (chunk.foldl adlerByte (a, b)).1 ≤ 65520 + 255 * n ∧
    2 * (chunk.foldl adlerByte (a, b)).2 ≤ 2 * 65520 + 2 * n * 65520 + 255 * (n * (n + 1)) := by
  have hfst := foldl_adlerByte_fst_le chunk a b
  have hsnd := two_mul_foldl_adlerByte_snd_le chunk a b
  have hmul : 2 * chunk.length * a ≤ 2 * n * 65520 := Nat.mul_le_mul (by omega) ha
  have hsq : chunk.length * (chunk.length + 1) ≤ n * (n + 1) := Nat.mul_le_mul hn (by omega)
  constructor <;> omega

/-- Settles O40: the bounds for `n` bytes at 5552 and at 3800. -/
theorem adlerSumsNeverOverflow : Obligations.AdlerSumsNeverOverflow := by
  constructor <;> intro chunk a b hn ha hb <;> have hle := foldl_adlerByte_le hn ha hb <;> omega

end Sys2Proof.Fn
end

section
/-! PROOFS. Sequences made of rows, and the filtered bitmap (`41_filter.md` R130, R132): every byte of it, and the
pixels without the filter-type bytes. -/

namespace Sys2Proof

/-! ### A sequence of rows -/

/-- Offsets inside row `y` of a sequence of rows whose earlier rows are of width `w`. -/
theorem slice_flatMap_range (row : Nat → List Byte) {w n y i j k l : Nat} (hy : y < n)
    (hw : ∀ x, x < y → (row x).length = w) (hk : k = y * w + i) (hl : l = y * w + j) (hj : j ≤ (row y).length) :
    slice ((List.range n).flatMap row) k l = slice (row y) i j := by
  obtain ⟨m, rfl⟩ := Nat.exists_eq_add_of_lt hy
  have hbefore : ((List.range y).flatMap row).length = y * w := by
    rw [List.length_flatMap, List.map_congr_left fun x hx => hw x (List.mem_range.mp hx)]
    simp
  rw [Nat.add_assoc, List.range_add, List.range_succ_eq_map, List.flatMap_append, List.map_cons, List.flatMap_cons,
    Nat.add_zero, ← List.append_assoc]
  exact slice_middle _ (row y) _ (hbefore.symm ▸ hk) (hbefore.symm ▸ hl) hj

theorem getElem?_slice (s : List Byte) {i j k : Nat} (h : k < j - i) : (slice s i j)[k]? = s[i + k]? := by
  rw [slice, List.getElem?_take_of_lt h, List.getElem?_drop]

/-- The consecutive slices of width `k` up to the end of a sequence join to it. -/
theorem flatMap_slices (s : List Byte) (k m : Nat) (h : s.length = m * k) :
    ((List.range m).flatMap fun i => slice s (i * k) ((i + 1) * k)) = s := by
  have hmin : ∀ i ∈ List.range m,
      slice s (i * k) ((i + 1) * k) = slice s (i * k) (min ((i + 1) * k) s.length) := by
    intro i hi
    rw [Nat.min_eq_left (h ▸ Nat.mul_le_mul_right k (List.mem_range.mp hi))]
  rw [List.flatMap_def, List.map_congr_left hmin, flatten_slices, ← h, Nat.min_self, slice_all _ _ le_rfl]

namespace Fn

/-! ### The rows of a filtered bitmap (R130) -/

/-- Row `y` of the filtered bitmap of rows of `n` bytes: the filter-type byte and the pixels. -/
def filterRow (p : List Byte) (n y : Nat) : List Byte := 0x00#8 :: slice p (y * n) ((y + 1) * n)

theorem filter_eq_rows (p : List Byte) (W H C : Nat) :
    filter p W H C = (List.range H).flatMap (filterRow p (W * C)) := rfl

section
variable {p : List Byte} {H n y : Nat}

theorem length_filterRow (hp : p.length = H * n) (hy : y < H) : (filterRow p n y).length = n + 1 := by
  have hend : (y + 1) * n ≤ p.length := hp ▸ Nat.mul_le_mul_right n hy
  rw [Nat.add_one_mul] at hend
  rw [filterRow, List.length_cons, length_slice, Nat.add_one_mul]
  omega

/-- Offsets inside row `y` of the filtered bitmap. -/
theorem slice_filterRows (hp : p.length = H * n) (hy : y < H) {i j k l : Nat} (hk : k = y * (n + 1) + i)
    (hl : l = y * (n + 1) + j) (hj : j ≤ n + 1) :
    slice ((List.range H).flatMap (filterRow p n)) k l = slice (filterRow p n y) i j :=
  slice_flatMap_range (filterRow p n) hy (fun _ hx => length_filterRow hp (hx.trans hy)) hk hl
    (hj.trans (length_filterRow hp hy).ge)

/-- A row after its filter-type byte. -/
theorem slice_filterRow_pixels (p : List Byte) (n y : Nat) :
    slice (filterRow p n y) 1 (n + 1) = slice p (y * n) ((y + 1) * n) := by
  rw [filterRow, slice, List.drop_one, List.tail_cons, List.take_of_length_le]
  rw [length_slice, Nat.add_one_mul]
  omega

theorem getElem?_filterRow_zero (p : List Byte) (n y : Nat) : (filterRow p n y)[0]? = some 0x00#8 := rfl

theorem getElem?_filterRow_of_ne_zero {r : Nat} (h0 : r ≠ 0) (hr : r < n + 1) :
    (filterRow p n y)[r]? = p[y * n + r - 1]? := by
  obtain ⟨r, rfl⟩ := Nat.exists_eq_add_one_of_ne_zero h0
  rw [filterRow, List.getElem?_cons_succ, getElem?_slice p (by rw [Nat.add_one_mul]; omega)]
  rfl

theorem getElem?_filterRows (hp : p.length = H * n) {k : Nat} (hk : k < H * (n + 1)) :
    ((List.range H).flatMap (filterRow p n))[k]? = (filterRow p n (k / (n + 1)))[k % (n + 1)]? := by
  have hy : k / (n + 1) < H := Nat.div_lt_of_lt_mul (by rwa [Nat.mul_comm])
  have hr : k % (n + 1) < n + 1 := Nat.mod_lt _ n.succ_pos
  have hrow : slice ((List.range H).flatMap (filterRow p n)) (k / (n + 1) * (n + 1)) (k / (n + 1) * (n + 1) + (n + 1)) =
      filterRow p n (k / (n + 1)) := by
    rw [slice_filterRows hp hy (Nat.add_zero _).symm rfl le_rfl, slice_all _ _ (length_filterRow hp hy).le]
  rw [← hrow, getElem?_slice _ (by omega), Nat.div_add_mod']

end

/-- Settles O41: byte `k` is byte `k mod (W*C+1)` of row `k div (W*C+1)`. -/
theorem filteredBitmapBytes : Obligations.FilteredBitmapBytes := by
  intro p W H C hp
  have hrows : p.length = H * (W * C) := by rw [hp]; ring
  refine ⟨length_filter p W H C hp, fun k hk => ?_⟩
  rw [filter_eq_rows, getElem?_filterRows hrows hk]
  split
  next h0 => rw [h0, getElem?_filterRow_zero]
  next h0 => exact getElem?_filterRow_of_ne_zero h0 (Nat.mod_lt _ (Nat.succ_pos _))

/-- R132 (b): without the filter-type bytes a filtered bitmap is the pixels. -/
theorem stripFilter_filter (p : List Byte) (W H C : Nat) (hp : p.length = W * H * C) :
    Machine.stripFilter H (W * C) (filter p W H C) = p := by
  have hrows : p.length = H * (W * C) := by rw [hp]; ring
  have hpixels : ∀ y ∈ List.range H,
      slice (filter p W H C) (y * (W * C + 1) + 1) ((y + 1) * (W * C + 1)) =
        slice p (y * (W * C)) ((y + 1) * (W * C)) := by
    intro y hy
    have hy := List.mem_range.mp hy
    rw [filter_eq_rows, slice_filterRows hrows hy rfl (Nat.add_one_mul _ _) le_rfl, slice_filterRow_pixels]
  rw [Machine.stripFilter, List.flatMap_def, List.map_congr_left hpixels, ← List.flatMap_def,
    flatMap_slices p (W * C) H hrows]

end Fn

end Sys2Proof
end

section
/-! PROOFS. The stored blocks of a stream at their offsets (`42_deflate_zlib.md` R144), the injectivity of the chunk
frame (`43_chunk.md` R163), and the round trip from the PNG file to the pixels (`44_encode.md` R176). -/

namespace Sys2Proof

namespace Fn

/-! ### The stored-block stream as a sequence of blocks (R142) -/

/-- Span `i` of a sequence (R140). -/
def spanAt (s : List Byte) (i : Nat) : List Byte := slice s (i * 65535) (min ((i + 1) * 65535) s.length)

/-- Block `i` of the stored-block stream (R142). -/
def blockAt (s : List Byte) (i : Nat) : List Byte := block (i + 1 == (s.length + 65534) / 65535) (spanAt s i)

theorem spans_eq_map (s : List Byte) : spans s = (List.range ((s.length + 65534) / 65535)).map (spanAt s) := by
  rw [spans, pieces, ceilDiv_eq, blockMax]
  rfl

theorem zipIdx_range (n : Nat) : (List.range n).zipIdx = (List.range n).map fun i => (i, i) := by
  apply List.ext_getElem <;> simp

theorem storedBlocks_eq_blocks (s : List Byte) :
    storedBlocks s = (List.range ((s.length + 65534) / 65535)).flatMap (blockAt s) := by
  rw [storedBlocks, length_spans, spans_eq_map, List.zipIdx_map, zipIdx_range, List.map_map, List.flatMap_map]
  rfl

theorem length_spanAt (s : List Byte) (i : Nat) : (spanAt s i).length = min 65535 (s.length - i * 65535) := by
  rw [spanAt, length_slice]
  omega

theorem length_blockAt (s : List Byte) (i : Nat) : (blockAt s i).length = 5 + (spanAt s i).length :=
  length_block _ _

/-- Offsets inside block `i`, which begins at `65540 * i` (R144). -/
theorem slice_storedBlocks (s : List Byte) {i j k l m : Nat} (hi : i < (s.length + 65534) / 65535)
    (hl : l = i * 65540 + j) (hm : m = i * 65540 + k) (hk : k ≤ 5 + (spanAt s i).length) :
    slice (storedBlocks s) l m = slice (blockAt s i) j k := by
  have hfull : ∀ x, x < i → (blockAt s x).length = 65540 := by
    intro x hx
    rw [length_blockAt, length_spanAt]
    omega
  rw [storedBlocks_eq_blocks]
  exact slice_flatMap_range (blockAt s) hi hfull hl hm (hk.trans (length_blockAt s i).ge)

/-! ### One block (R141) -/

theorem block_eq_header (final : Bool) (span : List Byte) :
    block final span = (if final then 0x01#8 else 0x00#8) ::
      (le16 (BitVec.ofNat 16 span.length) ++ le16 (0xFFFF#16 ^^^ BitVec.ofNat 16 span.length) ++ span) := rfl

/-- A block without its five header bytes is its payload. -/
theorem slice_block_payload (final : Bool) (span : List Byte) :
    slice (block final span) 5 (5 + span.length) = span := slice_eq_right _ _ rfl rfl

/-- NLEN is the complement of LEN. -/
theorem toNat_add_toNat_xor_ones (m : BitVec 16) : m.toNat + (0xFFFF#16 ^^^ m).toNat = 0xFFFF := by
  have hm := m.isLt
  have hnot : 0xFFFF#16 ^^^ m = ~~~m := BitVec.allOnes_xor
  rw [hnot, BitVec.toNat_not]
  omega

/-- Settles O43: block `i` is the slice of the stream from `65540 * i` on, and a span's length fits 16 bits. -/
theorem storedBlocksLayout : Obligations.StoredBlocksLayout := by
  rintro s K - rfl
  refine ⟨length_storedBlocks_eq s, fun i hi => ?_⟩
  refine ⟨BitVec.ofNat 16 (spanAt s i).length, 0xFFFF#16 ^^^ BitVec.ofNat 16 (spanAt s i).length, spanAt s i, rfl, ?len,
    toNat_add_toNat_xor_ones _, ?block⟩
  case len =>
    rw [BitVec.toNat_ofNat]
    refine Nat.mod_eq_of_lt ?_
    rw [length_spanAt]
    omega
  case block =>
    rw [slice_storedBlocks s hi (Nat.add_zero _).symm (Nat.add_assoc _ _ _) le_rfl,
      slice_all _ _ (length_blockAt s i).le, blockAt, block_eq_header]
    simp only [beq_iff_eq]

/-! ### The payloads (R144 (f)) -/

/-- The stream without the header bytes of its blocks is the sequence. -/
theorem stripBlocks_storedBlocks (s : List Byte) :
    Machine.stripBlocks ((s.length + 65534) / 65535) (storedBlocks s) = s := by
  have hpayload : ∀ i ∈ List.range ((s.length + 65534) / 65535),
      slice (storedBlocks s) (i * 65540 + 5) (min ((i + 1) * 65540) (storedBlocks s).length) = spanAt s i := by
    intro i hi
    have hi := List.mem_range.mp hi
    have hend : min ((i + 1) * 65540) (storedBlocks s).length = i * 65540 + (5 + (spanAt s i).length) := by
      rw [length_storedBlocks_eq, length_spanAt]
      omega
    rw [slice_storedBlocks s hi rfl hend le_rfl]
    exact slice_block_payload _ _
  rw [Machine.stripBlocks, List.flatMap_def, List.map_congr_left hpayload, ← spans_eq_map]
  exact flatten_pieces blockMax s (by decide)

/-! ### The chunk frame is injective (R163 (c)) -/

/-- Settles O46: equal chunks have data of equal length, so their types and data stand at the same offsets. -/
theorem chunkIsInjective : Obligations.ChunkIsInjective := by
  intro t d t' d' ht ht' heq
  have hlen : d.length = d'.length := by
    have hlengths := congrArg List.length heq
    rw [length_chunk t d ht, length_chunk t' d' ht'] at hlengths
    omega
  constructor
  · rw [← slice_chunk_type t d ht, heq, slice_chunk_type t' d' ht']
  · rw [← slice_chunk_all_data t d ht, heq, hlen, slice_chunk_all_data t' d' ht']

/-! ### From the file to the pixels (R176 (b)) -/

/-- The blocks of the IDAT data stand at 43 in the file: after the 8 bytes of the signature, the 25 of IHDR, the length
and type of IDAT, and the 2 header bytes of the zlib stream. -/
theorem slice_encode_blocks (W H C : Nat) (p : List Byte) {n : Nat} (hn : n = (storedBlocks (filter p W H C)).length) :
    slice (encode W H C p) 43 (43 + n) = storedBlocks (filter p W H C) := by
  have hzlib : (zlibWrap (filter p W H C)).length = 6 + n := by
    rw [length_zlibWrap, hn, length_storedBlocks_eq, Nat.add_assoc]
  calc slice (encode W H C p) 43 (43 + n)
      = slice (chunk typeIDAT (zlibWrap (filter p W H C))) (8 + 2) (8 + (2 + n)) :=
        slice_encode_idat W H C p (8 + 2) (8 + (2 + n)) rfl (by omega) (by omega)
    _ = slice (zlibWrap (filter p W H C)) 2 (2 + n) := slice_chunk_data typeIDAT _ rfl (by omega)
    _ = storedBlocks (filter p W H C) := slice_eq_middle _ _ _ rfl (by rw [hn])

/-- Settles O48: stripping the blocks gives the filtered bitmap, and stripping that the pixels. -/
theorem pngFileRecoversPixels : Obligations.PngFileRecoversPixels := by
  rintro W H C F K p - - - hp rfl rfl
  have hlen : (filter p W H C).length = H * (W * C + 1) := length_filter p W H C hp
  have hrows : Machine.stripBlocks ((H * (W * C + 1) + 65534) / 65535)
      (slice (encode W H C p) 43 (43 + H * (W * C + 1) + 5 * ((H * (W * C + 1) + 65534) / 65535))) =
        filter p W H C := by
    rw [← hlen, Nat.add_assoc, slice_encode_blocks W H C p (length_storedBlocks_eq _).symm, stripBlocks_storedBlocks]
  exact ⟨hrows, by rw [hrows, stripFilter_filter p W H C hp]⟩

end Fn

end Sys2Proof
end
